-- ==== Sys2Proof/Word.lean ====
section
/-!
DEFINITION. The word types of the ADSP-21xx core (R6, R9 of 00_scope.md): plain bit vectors, so
that the library's lemmas apply to them unchanged.
-/

namespace Sys2Proof

/-- A data word (R6): 16 bits. -/
abbrev Word := BitVec 16

/-- A program-memory or data-memory address, also the width of I, M, L, CNTR and `pc`: 14 bits. -/
abbrev Addr := BitVec 14

/-- A program-memory word, also an instruction word (R6, R120): 24 bits. -/
abbrev PWord := BitVec 24

/-- The multiplier result register MR (R22): 40 bits. -/
abbrev Acc := BitVec 40

/-- An address of the I/O space (R80): 11 bits. -/
abbrev IoAddr := BitVec 11

end Sys2Proof
end

