-- ==== Sys2Proof/Config.lean ====
section
/-!
DEFINITION. What an implementation fixes (R5 of 00_scope.md) and the free values (R10 `draw(N)`).
The parameters are plain data and stand in `State.cfg`, which no step changes, so that a statement
about every state speaks of every part of the family (log 5). The free values are one opaque
constant, so that nothing can be proved of them (log 10).
-/

namespace Sys2Proof

/-- What backs an address (`MEM_MAP`, R82, R83, R98). An address in no region is backed by nothing. -/
inductive Backing where
  | ram | rom | device
deriving DecidableEq, Repr

/-- One region of `MEM_MAP`: `size` words from `base` on. -/
structure Region where
  base : Nat
  size : Nat
  kind : Backing
deriving DecidableEq, Repr

/-- `entry_mask` of an interrupt source (R461), a function of IMASK and ICNTL, as data: constants,
IMASK with some bits kept, and choices on one bit of ICNTL or of IMASK (log 8). -/
inductive EntryMask where
  | const (v : BitVec 16)
  | keep (v : BitVec 16)
  | ifIcntl (bit : Fin 16) (yes no : EntryMask)
  | ifImask (bit : Fin 16) (yes no : EntryMask)
deriving DecidableEq, Repr

/-- One source of `IRQ_TABLE` (R461). `latch` is the source's own bit of IRQ_PENDING (R51);
`clearBit` and `forceBit` are its bits of an IFC write (R463); `isTimer` marks the timer (R471). -/
structure IrqSource where
  name : String
  vector : Addr
  maskBit : Fin 16
  priority : Nat
  latch : Fin 16
  entryMask : EntryMask
  clearsOnEntry : Bool
  maskableByIntsEn : Bool
  clearBit : Option (Fin 16)
  forceBit : Option (Fin 16)
  isTimer : Bool
deriving DecidableEq, Repr

/-- The implementation parameters of R5. The stack depths 16 and 4 of the PC and loop stacks, the 14
address bits and the 11 I/O address bits are fixed by the source and are no parameters (R6). -/
structure Config where
  /-- `EXT_ALU_MAC` -/
  extAluMac : Bool
  /-- `HAS_IO` -/
  hasIo : Bool
  /-- `HAS_FL` -/
  hasFl : Bool
  /-- `HAS_SLOW_IDLE` -/
  hasSlowIdle : Bool
  /-- `BIASED_RND`, only meaningful with `EXT_ALU_MAC` (R255) -/
  biasedRnd : Bool
  /-- `CNTR_STACK_DEPTH` -/
  cntrStackDepth : Nat
  /-- `STATUS_STACK_DEPTH` -/
  statusStackDepth : Nat
  /-- `IMASK_BITS`, at most 16 here -/
  imaskBits : Nat
  /-- `ICNTL_BITS`, at most 16 here -/
  icntlBits : Nat
  /-- `IFC_BITS`, at most 16 here -/
  ifcBits : Nat
  /-- `IRQ_TABLE` -/
  irqTable : List IrqSource
  /-- `MEM_MAP` of program memory -/
  pmMap : List Region
  /-- `MEM_MAP` of data memory; the I/O space needs none, R86 and R87 make all its addresses devices -/
  dmMap : List Region
deriving DecidableEq, Repr

/-- The parameters of the reset state: those of 95_test_vectors.md section 0 (every optional part
present, counter and status stacks four deep, all memory RAM, no interrupt source), with the register
widths of R469. DESIGN CHOICE (log 5, log 6, log 7). -/
def Config.standard : Config where
  extAluMac := true
  hasIo := true
  hasFl := true
  hasSlowIdle := true
  biasedRnd := false
  cntrStackDepth := 4
  statusStackDepth := 4
  imaskBits := 6
  icntlBits := 5
  ifcBits := 12
  irqTable := []
  pmMap := [⟨0, 0x4000, .ram⟩]
  dmMap := [⟨0, 0x4000, .ram⟩]

/-- `draw(N)` (R10): the free values, one for each number of a draw. It has no body: a statement holds
whatever the drawn values are. A draw of fewer than 24 bits takes the low ones (log 10). -/
opaque Config.oracle : Nat → BitVec 24

end Sys2Proof
end

