-- ==== Sys2Proof/Syntax.lean ====
section
/-!
DEFINITION. The instruction set as syntax: the operand types of 30_encoding.md section 3 and ONE
inductive `Instr` with one constructor for each row of spec/opcode_table.json, in the table's order.
A register number, condition or function code that the spec gives a name is a constructor here;
a field the spec says is ignored (R182) is no operand (log 16).
-/

namespace Sys2Proof

/-- COND (R160), in the order of its codes; `always` is the unconditional form 1111. -/
inductive Cond where
  | eq | ne | gt | le | lt | ge | av | notAv | ac | notAc | neg | pos | mv | notMv | notCe | always
deriving DecidableEq, Repr

/-- TERM (R161), in the order of its codes. -/
inductive Term where
  | ne | eq | le | gt | ge | lt | notAv | av | notAc | ac | pos | neg | notMv | mv | ce | forever
deriving DecidableEq, Repr

/-- Z (R170): the unit's result register (AR, MR) or its feedback register (AF, MF). -/
inductive Dest where
  | result | feedback
deriving DecidableEq, Repr

/-- ALU xop (R163), in the order of its codes. -/
inductive AluX where
  | ax0 | ax1 | ar | mr0 | mr1 | mr2 | sr0 | sr1
deriving DecidableEq, Repr

/-- ALU yop (R163): a register or the constant 0. -/
inductive AluY where
  | ay0 | ay1 | af | zero
deriving DecidableEq, Repr

/-- MAC xop (R163). -/
inductive MacX where
  | mx0 | mx1 | ar | mr0 | mr1 | mr2 | sr0 | sr1
deriving DecidableEq, Repr

/-- MAC yop (R163): a register or the constant 0. -/
inductive MacY where
  | my0 | my1 | mf | zero
deriving DecidableEq, Repr

/-- Shifter xop (R163): code 001 is reserved, so there are seven. -/
inductive ShX where
  | si | ar | mr0 | mr1 | mr2 | sr0 | sr1
deriving DecidableEq, Repr

/-- DREG (R164): the sixteen data registers, in the order of their codes. -/
inductive Dreg where
  | ax0 | ax1 | mx0 | mx1 | ay0 | ay1 | my0 | my1 | si | se | ar | mr0 | mr1 | mr2 | sr0 | sr1
deriving DecidableEq, Repr

/-- The serial port windows (R49). -/
inductive Port where
  | rx0 | tx0 | rx1 | tx1
deriving DecidableEq, Repr

/-- The registers of the Register Selection Table (R165) that can be read and written. -/
inductive Reg where
  | dreg (d : Dreg)
  | i (n : Fin 8)
  | m (n : Fin 8)
  | l (n : Fin 8)
  | astat | mstat | imask | icntl | cntr | sb | px
  | port (p : Port)
deriving DecidableEq, Repr

/-- What may be the source of a move: every `Reg`, and SSTAT, which is read only (R312). -/
inductive SrcReg where
  | reg (r : Reg)
  | sstat
deriving DecidableEq, Repr

/-- What may be the destination of a move: every `Reg`, and OWRCNTR and IFC, which are write only (R312). -/
inductive DstReg where
  | reg (r : Reg)
  | owrcntr
  | ifc
deriving DecidableEq, Repr

/-- The ALU functions AMF 10000 to 11111 (R167), in the order of their codes. -/
inductive AluFn where
  | passY | incY | addC | add | notY | negY | subC | sub | decY | rsub | rsubC | notX | and | or | xor | abs
deriving DecidableEq, Repr

/-- The three MAC operations (R253). -/
inductive MacOp where
  | mul | acc | sub
deriving DecidableEq, Repr

/-- The MAC data formats (R253). -/
inductive MacFmt where
  | rnd | ss | su | us | uu
deriving DecidableEq, Repr

/-- A computation clause of a multifunction instruction (R421): AMF, Yop and Xop. -/
inductive Calc where
  | alu (f : AluFn) (x : AluX) (y : AluY)
  | mac (op : MacOp) (fmt : MacFmt) (x : MacX) (y : MacY)
deriving DecidableEq, Repr

/-- SF (R169), in the order of its codes. -/
inductive ShFn where
  | lshiftHi | lshiftHiOr | lshiftLo | lshiftLoOr | ashiftHi | ashiftHiOr | ashiftLo | ashiftLoOr
  | normHi | normHiOr | normLo | normLoOr | expHi | expHix | expLo | expAdj
deriving DecidableEq, Repr

/-- A constant of the type 9 constant form (R166): `1 << n`, or its complement when `inv` (BO = 11). -/
structure Konst where
  n : Fin 16
  inv : Bool
deriving DecidableEq, Repr

/-- The two data address generators (R91): G = 0 and G = 1 (R168). -/
inductive Dag where
  | one | two
deriving DecidableEq, Repr

/-- DD of type 1 (R171): where the data-memory word goes. -/
inductive DdReg where
  | ax0 | ax1 | mx0 | mx1
deriving DecidableEq, Repr

/-- PD of type 1 (R171): where the program-memory word goes. -/
inductive PdReg where
  | ay0 | ay1 | my0 | my1
deriving DecidableEq, Repr

/-- A mode-control field (R172): 11, 10, and the two codes of no change. -/
inductive ModeOp where
  | keep | disable | enable
deriving DecidableEq, Repr

/-- FO (R174), in the order of its codes. -/
inductive PinOp where
  | keep | toggle | reset | set
deriving DecidableEq, Repr

/-- Spp of stack control (R173): 10, 11, and the two codes of no change. -/
inductive StsOp where
  | keep | push | pop
deriving DecidableEq, Repr

/-- DV of IDLE (n) (R176). -/
inductive SlowDiv where
  | d16 | d32 | d64 | d128
deriving DecidableEq, Repr

/-- The instructions: one constructor per row of spec/opcode_table.json. -/
inductive Instr where
  /-- `xop + yop`, R205 (register form). -/
  | addXY (z : Dest) (x : AluX) (y : AluY) (c : Cond)
  /-- `xop + yop`, R205 with a constant for yop (R166). -/
  | addXK (z : Dest) (x : AluX) (k : Konst) (c : Cond)
  /-- `xop + yop + C`, R206 (register form). -/
  | addcXY (z : Dest) (x : AluX) (y : AluY) (c : Cond)
  /-- `xop + yop + C`, R206 with a constant for yop (R166). -/
  | addcXK (z : Dest) (x : AluX) (k : Konst) (c : Cond)
  /-- `xop - yop`, R207 (register form). -/
  | subXY (z : Dest) (x : AluX) (y : AluY) (c : Cond)
  /-- `xop - yop`, R207 with a constant for yop (R166). -/
  | subXK (z : Dest) (x : AluX) (k : Konst) (c : Cond)
  /-- `xop - yop + C - 1`, R208 (register form). -/
  | subbXY (z : Dest) (x : AluX) (y : AluY) (c : Cond)
  /-- `xop - yop + C - 1`, R208 with a constant for yop (R166). -/
  | subbXK (z : Dest) (x : AluX) (k : Konst) (c : Cond)
  /-- `yop - xop`, R209 (register form). -/
  | rsubXY (z : Dest) (x : AluX) (y : AluY) (c : Cond)
  /-- `yop - xop`, R209 with a constant for yop (R166). -/
  | rsubXK (z : Dest) (x : AluX) (k : Konst) (c : Cond)
  /-- `yop - xop + C - 1`, R210 (register form). -/
  | rsubbXY (z : Dest) (x : AluX) (y : AluY) (c : Cond)
  /-- `yop - xop + C - 1`, R210 with a constant for yop (R166). -/
  | rsubbXK (z : Dest) (x : AluX) (k : Konst) (c : Cond)
  /-- `xop AND yop`, R211 (register form). -/
  | andXY (z : Dest) (x : AluX) (y : AluY) (c : Cond)
  /-- `xop AND yop`, R211 with a constant for yop (R166). -/
  | andXK (z : Dest) (x : AluX) (k : Konst) (c : Cond)
  /-- `xop OR yop`, R212 (register form). -/
  | orXY (z : Dest) (x : AluX) (y : AluY) (c : Cond)
  /-- `xop OR yop`, R212 with a constant for yop (R166). -/
  | orXK (z : Dest) (x : AluX) (k : Konst) (c : Cond)
  /-- `xop XOR yop`, R213 (register form). -/
  | xorXY (z : Dest) (x : AluX) (y : AluY) (c : Cond)
  /-- `xop XOR yop`, R213 with a constant for yop (R166). -/
  | xorXK (z : Dest) (x : AluX) (k : Konst) (c : Cond)
  /-- TSTBIT, R214. -/
  | tstBit (z : Dest) (n : Fin 16) (x : AluX) (c : Cond)
  /-- SETBIT, R215. -/
  | setBit (z : Dest) (n : Fin 16) (x : AluX) (c : Cond)
  /-- CLRBIT, R216. -/
  | clrBit (z : Dest) (n : Fin 16) (x : AluX) (c : Cond)
  /-- TGLBIT, R217. -/
  | tglBit (z : Dest) (n : Fin 16) (x : AluX) (c : Cond)
  /-- PASS yop, R218. -/
  | passY (z : Dest) (y : AluY) (c : Cond)
  /-- PASS 0, R218. -/
  | passZero (z : Dest) (c : Cond)
  /-- PASS xop, R219. -/
  | passX (z : Dest) (x : AluX) (c : Cond)
  /-- PASS 1, R220. -/
  | passOne (z : Dest) (c : Cond)
  /-- PASS -1, R220. -/
  | passMinusOne (z : Dest) (c : Cond)
  /-- PASS constant, R221. -/
  | passK (z : Dest) (k : Konst) (c : Cond)
  /-- PASS constant + 1, R221. -/
  | passKInc (z : Dest) (k : Konst) (c : Cond)
  /-- PASS constant - 1, R221. -/
  | passKDec (z : Dest) (k : Konst) (c : Cond)
  /-- `- xop`, R222. -/
  | negX (z : Dest) (x : AluX) (c : Cond)
  /-- `- yop`, R223. -/
  | negY (z : Dest) (y : AluY) (c : Cond)
  /-- NOT xop, R224. -/
  | notX (z : Dest) (x : AluX) (c : Cond)
  /-- NOT yop, R225. -/
  | notY (z : Dest) (y : AluY) (c : Cond)
  /-- ABS xop, R226. -/
  | absX (z : Dest) (x : AluX) (c : Cond)
  /-- `yop + 1`, R227. -/
  | incY (z : Dest) (y : AluY) (c : Cond)
  /-- `yop - 1`, R228. -/
  | decY (z : Dest) (y : AluY) (c : Cond)
  /-- DIVS, R235. -/
  | divs (y : AluY) (x : AluX)
  /-- DIVQ, R236. -/
  | divq (x : AluX)
  /-- NONE = <ALU>, R240. -/
  | noneAlu (f : AluFn) (x : AluX) (y : AluY)
  /-- `xop * yop (SS)`, R256. -/
  | mulSS (z : Dest) (x : MacX) (y : MacY) (c : Cond)
  /-- `xop * yop (SU)`, R256. -/
  | mulSU (z : Dest) (x : MacX) (y : MacY) (c : Cond)
  /-- `xop * yop (US)`, R256. -/
  | mulUS (z : Dest) (x : MacX) (y : MacY) (c : Cond)
  /-- `xop * yop (UU)`, R256. -/
  | mulUU (z : Dest) (x : MacX) (y : MacY) (c : Cond)
  /-- `xop * yop (RND)`, R256. -/
  | mulRND (z : Dest) (x : MacX) (y : MacY) (c : Cond)
  /-- `MR + xop * yop (SS)`, R257. -/
  | macSS (z : Dest) (x : MacX) (y : MacY) (c : Cond)
  /-- `MR + xop * yop (SU)`, R257. -/
  | macSU (z : Dest) (x : MacX) (y : MacY) (c : Cond)
  /-- `MR + xop * yop (US)`, R257. -/
  | macUS (z : Dest) (x : MacX) (y : MacY) (c : Cond)
  /-- `MR + xop * yop (UU)`, R257. -/
  | macUU (z : Dest) (x : MacX) (y : MacY) (c : Cond)
  /-- `MR + xop * yop (RND)`, R257. -/
  | macRND (z : Dest) (x : MacX) (y : MacY) (c : Cond)
  /-- `MR - xop * yop (SS)`, R258. -/
  | msubSS (z : Dest) (x : MacX) (y : MacY) (c : Cond)
  /-- `MR - xop * yop (SU)`, R258. -/
  | msubSU (z : Dest) (x : MacX) (y : MacY) (c : Cond)
  /-- `MR - xop * yop (US)`, R258. -/
  | msubUS (z : Dest) (x : MacX) (y : MacY) (c : Cond)
  /-- `MR - xop * yop (UU)`, R258. -/
  | msubUU (z : Dest) (x : MacX) (y : MacY) (c : Cond)
  /-- `MR - xop * yop (RND)`, R258. -/
  | msubRND (z : Dest) (x : MacX) (y : MacY) (c : Cond)
  /-- `xop * xop (SS)`, R259. -/
  | sqSS (z : Dest) (x : MacX) (c : Cond)
  /-- `xop * xop (UU)`, R259. -/
  | sqUU (z : Dest) (x : MacX) (c : Cond)
  /-- `xop * xop (RND)`, R259. -/
  | sqRND (z : Dest) (x : MacX) (c : Cond)
  /-- `MR + xop * xop (SS)`, R259. -/
  | macSqSS (z : Dest) (x : MacX) (c : Cond)
  /-- `MR + xop * xop (UU)`, R259. -/
  | macSqUU (z : Dest) (x : MacX) (c : Cond)
  /-- `MR + xop * xop (RND)`, R259. -/
  | macSqRND (z : Dest) (x : MacX) (c : Cond)
  /-- `MR - xop * xop (SS)`, R259. -/
  | msubSqSS (z : Dest) (x : MacX) (c : Cond)
  /-- `MR - xop * xop (UU)`, R259. -/
  | msubSqUU (z : Dest) (x : MacX) (c : Cond)
  /-- `MR - xop * xop (RND)`, R259. -/
  | msubSqRND (z : Dest) (x : MacX) (c : Cond)
  /-- `MR|MF = 0`, R260. -/
  | clearMR (z : Dest) (c : Cond)
  /-- `MR|MF = MR`, R261. -/
  | transferMR (z : Dest) (c : Cond)
  /-- `MR|MF = MR (RND)`, R261. -/
  | transferMRRnd (z : Dest) (c : Cond)
  /-- IF MV SAT MR, R270. -/
  | satMR
  /-- LSHIFT (HI), R285. -/
  | lshiftHi (x : ShX) (c : Cond)
  /-- LSHIFT (HI, OR), R285. -/
  | lshiftHiOr (x : ShX) (c : Cond)
  /-- LSHIFT (LO), R285. -/
  | lshiftLo (x : ShX) (c : Cond)
  /-- LSHIFT (LO, OR), R285. -/
  | lshiftLoOr (x : ShX) (c : Cond)
  /-- ASHIFT (HI), R286. -/
  | ashiftHi (x : ShX) (c : Cond)
  /-- ASHIFT (HI, OR), R286. -/
  | ashiftHiOr (x : ShX) (c : Cond)
  /-- ASHIFT (LO), R286. -/
  | ashiftLo (x : ShX) (c : Cond)
  /-- ASHIFT (LO, OR), R286. -/
  | ashiftLoOr (x : ShX) (c : Cond)
  /-- NORM (HI), R287. -/
  | normHi (x : ShX) (c : Cond)
  /-- NORM (HI, OR), R287. -/
  | normHiOr (x : ShX) (c : Cond)
  /-- NORM (LO), R287. -/
  | normLo (x : ShX) (c : Cond)
  /-- NORM (LO, OR), R287. -/
  | normLoOr (x : ShX) (c : Cond)
  /-- EXP (HI), R290. -/
  | expHi (x : ShX) (c : Cond)
  /-- EXP (HIX), R291. -/
  | expHix (x : ShX) (c : Cond)
  /-- EXP (LO), R292. -/
  | expLo (x : ShX) (c : Cond)
  /-- EXPADJ, R295. -/
  | expAdj (x : ShX) (c : Cond)
  /-- LSHIFT BY <exp> (HI), R300. -/
  | lshiftImmHi (x : ShX) (e : BitVec 8)
  /-- LSHIFT BY <exp> (HI, OR), R300. -/
  | lshiftImmHiOr (x : ShX) (e : BitVec 8)
  /-- LSHIFT BY <exp> (LO), R300. -/
  | lshiftImmLo (x : ShX) (e : BitVec 8)
  /-- LSHIFT BY <exp> (LO, OR), R300. -/
  | lshiftImmLoOr (x : ShX) (e : BitVec 8)
  /-- ASHIFT BY <exp> (HI), R301. -/
  | ashiftImmHi (x : ShX) (e : BitVec 8)
  /-- ASHIFT BY <exp> (HI, OR), R301. -/
  | ashiftImmHiOr (x : ShX) (e : BitVec 8)
  /-- ASHIFT BY <exp> (LO), R301. -/
  | ashiftImmLo (x : ShX) (e : BitVec 8)
  /-- ASHIFT BY <exp> (LO, OR), R301. -/
  | ashiftImmLoOr (x : ShX) (e : BitVec 8)
  /-- `reg = reg`, R313. -/
  | regMove (d : DstReg) (r : SrcReg)
  /-- `dreg = <data>`, R315. -/
  | loadDreg (d : Dreg) (v : Word)
  /-- `reg = <data>`, R316. -/
  | loadReg (d : DstReg) (v : BitVec 14)
  /-- `reg = DM(<addr>)`, R320. -/
  | dmReadDirect (d : DstReg) (a : Addr)
  /-- `DM(<addr>) = reg`, R324. -/
  | dmWriteDirect (a : Addr) (r : SrcReg)
  /-- `dreg = DM(I, M)`, R321. -/
  | dmRead (g : Dag) (d : Dreg) (i m : Fin 4)
  /-- `DM(I, M) = dreg`, R325. -/
  | dmWrite (g : Dag) (r : Dreg) (i m : Fin 4)
  /-- `DM(I, M) = <data>`, R326. -/
  | dmWriteImm (g : Dag) (v : Word) (i m : Fin 4)
  /-- `dreg = PM(I, M)`, R322. -/
  | pmRead (d : Dreg) (i m : Fin 4)
  /-- `PM(I, M) = dreg`, R327. -/
  | pmWrite (r : Dreg) (i m : Fin 4)
  /-- `dreg = IO(<addr>)`, R330. -/
  | ioRead (d : Dreg) (a : IoAddr)
  /-- `IO(<addr>) = dreg`, R331. -/
  | ioWrite (a : IoAddr) (r : Dreg)
  /-- `[IF cond] JUMP <addr>`, R350. -/
  | jump (a : Addr) (c : Cond)
  /-- `[IF cond] JUMP (I4..I7)`, R351. -/
  | jumpInd (i : Fin 4) (c : Cond)
  /-- `[IF cond] CALL <addr>`, R353. -/
  | call (a : Addr) (c : Cond)
  /-- `[IF cond] CALL (I4..I7)`, R354. -/
  | callInd (i : Fin 4) (c : Cond)
  /-- `IF [NOT] FLAG_IN JUMP <addr>`, R356: `on` is FIC. -/
  | jumpFlagIn (on : Bool) (a : Addr)
  /-- `IF [NOT] FLAG_IN CALL <addr>`, R356: `on` is FIC. -/
  | callFlagIn (on : Bool) (a : Addr)
  /-- SET, RESET, TOGGLE of the flag pins, R358. -/
  | flagOut (f2 f1 f0 fo : PinOp) (c : Cond)
  /-- `[IF cond] RTS`, R360. -/
  | rts (c : Cond)
  /-- `[IF cond] RTI`, R361. -/
  | rti (c : Cond)
  /-- `DO <addr> [UNTIL term]`, R370. -/
  | doUntil (a : Addr) (t : Term)
  /-- IDLE, R380. -/
  | idle
  /-- IDLE (n), R381. -/
  | idleN (n : SlowDiv)
  /-- Stack control, R390. -/
  | stackControl (pp lp cp : Bool) (sp : StsOp)
  /-- `reg = TOPPCSTACK`, R396. -/
  | regFromTop (d : Reg)
  /-- `TOPPCSTACK = reg`, R397. -/
  | topFromReg (r : Reg)
  /-- Mode control, R400. -/
  | modeControl (ti mm as ol br sr gm : ModeOp)
  /-- `MODIFY (I, M)`, R405. -/
  | modify (g : Dag) (i m : Fin 4)
  /-- NOP, R408. -/
  | nop
  /-- Type 9 with AMF = 00000, R409. -/
  | nopType9
  /-- ENA INTS, R410. -/
  | enaInts
  /-- DIS INTS, R411. -/
  | disInts
  /-- `<ALU>|<MAC>, dreg = DM(I, M)`, R430. -/
  | compDmRead (g : Dag) (z : Dest) (k : Calc) (d : Dreg) (i m : Fin 4)
  /-- `<ALU>|<MAC>, dreg = PM(I, M)`, R431. -/
  | compPmRead (z : Dest) (k : Calc) (d : Dreg) (i m : Fin 4)
  /-- `<SHIFT>, dreg = DM(I, M)`, R432. -/
  | shiftDmRead (g : Dag) (f : ShFn) (x : ShX) (d : Dreg) (i m : Fin 4)
  /-- `<SHIFT>, dreg = PM(I, M)`, R432. -/
  | shiftPmRead (f : ShFn) (x : ShX) (d : Dreg) (i m : Fin 4)
  /-- `<ALU>|<MAC>, dreg = dreg`, R433; no computation for AMF = 00000. -/
  | compMove (z : Dest) (k : Option Calc) (d r : Dreg)
  /-- `<SHIFT>, dreg = dreg`, R434. -/
  | shiftMove (f : ShFn) (x : ShX) (d r : Dreg)
  /-- `DM(I, M) = dreg, <ALU>|<MAC>`, R436. -/
  | compDmWrite (g : Dag) (z : Dest) (k : Calc) (r : Dreg) (i m : Fin 4)
  /-- `PM(I, M) = dreg, <ALU>|<MAC>`, R437. -/
  | compPmWrite (z : Dest) (k : Calc) (r : Dreg) (i m : Fin 4)
  /-- `DM(I, M) = dreg, <SHIFT>`, R438. -/
  | shiftDmWrite (g : Dag) (f : ShFn) (x : ShX) (r : Dreg) (i m : Fin 4)
  /-- `PM(I, M) = dreg, <SHIFT>`, R438. -/
  | shiftPmWrite (f : ShFn) (x : ShX) (r : Dreg) (i m : Fin 4)
  /-- DM and PM read, R440. -/
  | dualRead (pd : PdReg) (dd : DdReg) (pi pm di dm : Fin 4)
  /-- `<ALU>|<MAC>` with DM and PM read, R441. -/
  | compDualRead (k : Calc) (pd : PdReg) (dd : DdReg) (pi pm di dm : Fin 4)
deriving DecidableEq, Repr

end Sys2Proof
end

