-- ==== Sys2Proof/WellFormed.lean ====
section
/-!
DEFINITION. Which instructions a word can stand for: the checks of R180 items 3 to 6 that the syntax
does not make impossible, the availability parameters of R5, and R197's choice among the rows of the
opcode table (an instruction whose word is read as a more specific row is not well formed, log 15).
-/

namespace Sys2Proof

/-- Group 11 of the Register Selection Table (R165), the registers TOPPCSTACK may not be paired with (R395). -/
def Reg.inGroup3 : Reg → Bool
  | .astat | .mstat | .imask | .icntl | .cntr | .sb | .px | .port _ => true
  | .dreg _ | .i _ | .m _ | .l _ => false

/-- A data register as the destination of a move. -/
def DstReg.isDreg : DstReg → Bool
  | .reg (.dreg _) => true
  | _ => false

/-- The word pattern of `NONE = <ALU>` in type 8 (R130, R240). -/
def isNoneWord (z : Dest) (k : Option Calc) (d r : Dreg) : Bool :=
  match z, k, d, r with
  | .result, some (.alu _ _ _), .ar, .ar => true
  | _, _, _, _ => false

/-- The instructions some word decodes to on a part with the parameters `c`. -/
def wellFormed (c : Config) (i : Instr) : Bool :=
  match i with
  -- with yop = 0 the word is PASS xop (R219) or - xop (R222), PASS 0, PASS 1, PASS -1 (R218, R220)
  | .addXY _ _ y _ | .rsubXY _ _ y _ | .passY _ y _ | .incY _ y _ | .decY _ y _ => y != .zero
  -- the constant forms exist on EXT_ALU_MAC parts only (R166)
  | .addXK .. | .addcXK .. | .subXK .. | .subbXK .. | .rsubXK .. | .rsubbXK .. => c.extAluMac
  | .passK .. | .passKInc .. | .passKDec .. => c.extAluMac
  -- xop AND constant is TSTBIT or CLRBIT; OR and XOR with BO = 01 are SETBIT and TGLBIT (R192, R197)
  | .andXK .. => false
  | .orXK _ _ k _ | .xorXK _ _ k _ => c.extAluMac && k.inv
  | .tstBit .. | .setBit .. | .clrBit .. | .tglBit .. => c.extAluMac
  | .noneAlu .. => c.extAluMac
  -- DIVS takes AY1 or AF (R235)
  | .divs y _ => y == .ay1 || y == .af
  -- Yop = 11 with Xop = 000 is MR|MF = 0, = MR, = MR (RND) (R260, R261)
  | .mulSS _ x y _ | .macSS _ x y _ | .macRND _ x y _ => !(x == .mx0 && y == .zero)
  -- the squaring forms exist on EXT_ALU_MAC parts only (R259)
  | .sqSS .. | .sqUU .. | .sqRND .. | .macSqSS .. | .macSqUU .. | .macSqRND .. => c.extAluMac
  | .msubSqSS .. | .msubSqUU .. | .msubSqRND .. => c.extAluMac
  -- type 7 loads no data register (R316)
  | .loadReg d _ => !d.isDreg
  | .ioRead .. | .ioWrite .. => c.hasIo
  | .flagOut f2 f1 f0 _ _ => c.hasFl || (f2 == .keep && f1 == .keep && f0 == .keep)
  | .idleN _ => c.hasSlowIdle
  -- on every part: R5 makes no parameter of them (R395 to R397, log 17)
  | .regFromTop d => !d.inGroup3
  | .topFromReg r => !r.inGroup3
  | .enaInts | .disInts => c.extAluMac
  -- AMF = 00000 has no destination, so Z is ignored; on EXT_ALU_MAC parts the NONE word is NONE (R433, R240)
  | .compMove z k d r => (k.isSome || z == .result) && !(c.extAluMac && isNoneWord z k d r)
  | .addcXY .. | .subXY .. | .subbXY .. | .rsubbXY .. | .andXY .. | .orXY .. | .xorXY .. => true
  | .passZero .. | .passX .. | .passOne .. | .passMinusOne .. => true
  | .negX .. | .negY .. | .notX .. | .notY .. | .absX .. | .divq .. => true
  | .mulSU .. | .mulUS .. | .mulUU .. | .mulRND .. | .macSU .. | .macUS .. | .macUU .. => true
  | .msubSS .. | .msubSU .. | .msubUS .. | .msubUU .. | .msubRND .. => true
  | .clearMR .. | .transferMR .. | .transferMRRnd .. | .satMR => true
  | .lshiftHi .. | .lshiftHiOr .. | .lshiftLo .. | .lshiftLoOr .. => true
  | .ashiftHi .. | .ashiftHiOr .. | .ashiftLo .. | .ashiftLoOr .. => true
  | .normHi .. | .normHiOr .. | .normLo .. | .normLoOr .. => true
  | .expHi .. | .expHix .. | .expLo .. | .expAdj .. => true
  | .lshiftImmHi .. | .lshiftImmHiOr .. | .lshiftImmLo .. | .lshiftImmLoOr .. => true
  | .ashiftImmHi .. | .ashiftImmHiOr .. | .ashiftImmLo .. | .ashiftImmLoOr .. => true
  | .regMove .. | .loadDreg .. | .dmReadDirect .. | .dmWriteDirect .. => true
  | .dmRead .. | .dmWrite .. | .dmWriteImm .. | .pmRead .. | .pmWrite .. => true
  | .jump .. | .jumpInd .. | .call .. | .callInd .. | .jumpFlagIn .. | .callFlagIn .. => true
  | .rts .. | .rti .. | .doUntil .. | .idle | .stackControl .. => true
  | .modeControl .. | .modify .. | .nop | .nopType9 => true
  | .compDmRead .. | .compPmRead .. | .shiftDmRead .. | .shiftPmRead .. | .shiftMove .. => true
  | .compDmWrite .. | .compPmWrite .. | .shiftDmWrite .. | .shiftPmWrite .. => true
  | .dualRead .. | .compDualRead .. => true

end Sys2Proof
end

