-- ==== Sys2Proof/Decode.lean ====
section
/-!
DEFINITION. The encoding tables of 30_encoding.md: the code of every field, the decoder (total on every
24-bit word, none for a reserved one, R180, R455) and the encoder. `decode` reads the word's row as
R122 and R197 say, then applies the field checks of R180 (`wellFormed`).
-/

namespace Sys2Proof

/-- The 4-bit code of a condition (R160). -/
def Cond.code : Cond → BitVec 4
  | .eq => 0#4
  | .ne => 1#4
  | .gt => 2#4
  | .le => 3#4
  | .lt => 4#4
  | .ge => 5#4
  | .av => 6#4
  | .notAv => 7#4
  | .ac => 8#4
  | .notAc => 9#4
  | .neg => 10#4
  | .pos => 11#4
  | .mv => 12#4
  | .notMv => 13#4
  | .notCe => 14#4
  | .always => 15#4

/-- A condition that a code names (R160). -/
def Cond.ofCode (c : BitVec 4) : Cond :=
  match c.toNat with
  | 0 => .eq
  | 1 => .ne
  | 2 => .gt
  | 3 => .le
  | 4 => .lt
  | 5 => .ge
  | 6 => .av
  | 7 => .notAv
  | 8 => .ac
  | 9 => .notAc
  | 10 => .neg
  | 11 => .pos
  | 12 => .mv
  | 13 => .notMv
  | 14 => .notCe
  | _ => .always

/-- The 4-bit code of a termination condition (R161). -/
def Term.code : Term → BitVec 4
  | .ne => 0#4
  | .eq => 1#4
  | .le => 2#4
  | .gt => 3#4
  | .ge => 4#4
  | .lt => 5#4
  | .notAv => 6#4
  | .av => 7#4
  | .notAc => 8#4
  | .ac => 9#4
  | .pos => 10#4
  | .neg => 11#4
  | .notMv => 12#4
  | .mv => 13#4
  | .ce => 14#4
  | .forever => 15#4

/-- A termination condition that a code names (R161). -/
def Term.ofCode (c : BitVec 4) : Term :=
  match c.toNat with
  | 0 => .ne
  | 1 => .eq
  | 2 => .le
  | 3 => .gt
  | 4 => .ge
  | 5 => .lt
  | 6 => .notAv
  | 7 => .av
  | 8 => .notAc
  | 9 => .ac
  | 10 => .pos
  | 11 => .neg
  | 12 => .notMv
  | 13 => .mv
  | 14 => .ce
  | _ => .forever

/-- The 1-bit code of Z (R170). -/
def Dest.code : Dest → BitVec 1
  | .result => 0#1
  | .feedback => 1#1

/-- Z that a code names (R170). -/
def Dest.ofCode (c : BitVec 1) : Dest :=
  match c.toNat with
  | 0 => .result
  | _ => .feedback

/-- The 3-bit code of an ALU xop (R163). -/
def AluX.code : AluX → BitVec 3
  | .ax0 => 0#3
  | .ax1 => 1#3
  | .ar => 2#3
  | .mr0 => 3#3
  | .mr1 => 4#3
  | .mr2 => 5#3
  | .sr0 => 6#3
  | .sr1 => 7#3

/-- An ALU xop that a code names (R163). -/
def AluX.ofCode (c : BitVec 3) : AluX :=
  match c.toNat with
  | 0 => .ax0
  | 1 => .ax1
  | 2 => .ar
  | 3 => .mr0
  | 4 => .mr1
  | 5 => .mr2
  | 6 => .sr0
  | _ => .sr1

/-- The 2-bit code of an ALU yop (R163). -/
def AluY.code : AluY → BitVec 2
  | .ay0 => 0#2
  | .ay1 => 1#2
  | .af => 2#2
  | .zero => 3#2

/-- An ALU yop that a code names (R163). -/
def AluY.ofCode (c : BitVec 2) : AluY :=
  match c.toNat with
  | 0 => .ay0
  | 1 => .ay1
  | 2 => .af
  | _ => .zero

/-- The 3-bit code of a MAC xop (R163). -/
def MacX.code : MacX → BitVec 3
  | .mx0 => 0#3
  | .mx1 => 1#3
  | .ar => 2#3
  | .mr0 => 3#3
  | .mr1 => 4#3
  | .mr2 => 5#3
  | .sr0 => 6#3
  | .sr1 => 7#3

/-- A MAC xop that a code names (R163). -/
def MacX.ofCode (c : BitVec 3) : MacX :=
  match c.toNat with
  | 0 => .mx0
  | 1 => .mx1
  | 2 => .ar
  | 3 => .mr0
  | 4 => .mr1
  | 5 => .mr2
  | 6 => .sr0
  | _ => .sr1

/-- The 2-bit code of a MAC yop (R163). -/
def MacY.code : MacY → BitVec 2
  | .my0 => 0#2
  | .my1 => 1#2
  | .mf => 2#2
  | .zero => 3#2

/-- A MAC yop that a code names (R163). -/
def MacY.ofCode (c : BitVec 2) : MacY :=
  match c.toNat with
  | 0 => .my0
  | 1 => .my1
  | 2 => .mf
  | _ => .zero

/-- The code of a shifter xop (R163). -/
def ShX.code : ShX → BitVec 3
  | .si => 0#3
  | .ar => 2#3
  | .mr0 => 3#3
  | .mr1 => 4#3
  | .mr2 => 5#3
  | .sr0 => 6#3
  | .sr1 => 7#3

/-- The shifter xop that a code names; code 001 is reserved (R163, R180 item 4). -/
def ShX.ofCode (c : BitVec 3) : Option ShX :=
  match c.toNat with
  | 0 => some .si
  | 1 => none
  | 2 => some .ar
  | 3 => some .mr0
  | 4 => some .mr1
  | 5 => some .mr2
  | 6 => some .sr0
  | _ => some .sr1

/-- The 4-bit code of a data register (R164). -/
def Dreg.code : Dreg → BitVec 4
  | .ax0 => 0#4
  | .ax1 => 1#4
  | .mx0 => 2#4
  | .mx1 => 3#4
  | .ay0 => 4#4
  | .ay1 => 5#4
  | .my0 => 6#4
  | .my1 => 7#4
  | .si => 8#4
  | .se => 9#4
  | .ar => 10#4
  | .mr0 => 11#4
  | .mr1 => 12#4
  | .mr2 => 13#4
  | .sr0 => 14#4
  | .sr1 => 15#4

/-- A data register that a code names (R164). -/
def Dreg.ofCode (c : BitVec 4) : Dreg :=
  match c.toNat with
  | 0 => .ax0
  | 1 => .ax1
  | 2 => .mx0
  | 3 => .mx1
  | 4 => .ay0
  | 5 => .ay1
  | 6 => .my0
  | 7 => .my1
  | 8 => .si
  | 9 => .se
  | 10 => .ar
  | 11 => .mr0
  | 12 => .mr1
  | 13 => .mr2
  | 14 => .sr0
  | _ => .sr1

/-- RGP and REG of a register (R165): the group in the high two bits. -/
def Reg.code : Reg → BitVec 6
  | .dreg d => 0#2 ++ d.code
  | .i n => if n.val < 4 then 1#2 ++ BitVec.ofNat 4 n.val else 2#2 ++ BitVec.ofNat 4 (n.val - 4)
  | .m n => if n.val < 4 then 1#2 ++ BitVec.ofNat 4 (n.val + 4) else 2#2 ++ BitVec.ofNat 4 n.val
  | .l n => if n.val < 4 then 1#2 ++ BitVec.ofNat 4 (n.val + 8) else 2#2 ++ BitVec.ofNat 4 (n.val + 4)
  | .astat => 3#2 ++ 0#4
  | .mstat => 3#2 ++ 1#4
  | .imask => 3#2 ++ 3#4
  | .icntl => 3#2 ++ 4#4
  | .cntr => 3#2 ++ 5#4
  | .sb => 3#2 ++ 6#4
  | .px => 3#2 ++ 7#4
  | .port .rx0 => 3#2 ++ 8#4
  | .port .tx0 => 3#2 ++ 9#4
  | .port .rx1 => 3#2 ++ 10#4
  | .port .tx1 => 3#2 ++ 11#4

/-- The readable and writable register that RGP and REG name (R165). -/
def Reg.ofCode (rgp : BitVec 2) (reg : BitVec 4) : Option Reg :=
  match rgp.toNat with
  | 0 => some (.dreg (Dreg.ofCode reg))
  | 1 =>
    match reg.toNat with
    | 0 => some (.i 0)
    | 1 => some (.i 1)
    | 2 => some (.i 2)
    | 3 => some (.i 3)
    | 4 => some (.m 0)
    | 5 => some (.m 1)
    | 6 => some (.m 2)
    | 7 => some (.m 3)
    | 8 => some (.l 0)
    | 9 => some (.l 1)
    | 10 => some (.l 2)
    | 11 => some (.l 3)
    | _ => none
  | 2 =>
    match reg.toNat with
    | 0 => some (.i 4)
    | 1 => some (.i 5)
    | 2 => some (.i 6)
    | 3 => some (.i 7)
    | 4 => some (.m 4)
    | 5 => some (.m 5)
    | 6 => some (.m 6)
    | 7 => some (.m 7)
    | 8 => some (.l 4)
    | 9 => some (.l 5)
    | 10 => some (.l 6)
    | 11 => some (.l 7)
    | _ => none
  | _ =>
    match reg.toNat with
    | 0 => some .astat
    | 1 => some .mstat
    | 3 => some .imask
    | 4 => some .icntl
    | 5 => some .cntr
    | 6 => some .sb
    | 7 => some .px
    | 8 => some (.port .rx0)
    | 9 => some (.port .tx0)
    | 10 => some (.port .rx1)
    | 11 => some (.port .tx1)
    | _ => none

/-- The code of a source register: SSTAT is group 11, code 0010 (R165). -/
def SrcReg.code : SrcReg → BitVec 6
  | .reg r => r.code
  | .sstat => 3#2 ++ 2#4

/-- The source register that RGP and REG name; IFC and OWRCNTR are no sources (R312). -/
def SrcReg.ofCode (rgp : BitVec 2) (reg : BitVec 4) : Option SrcReg :=
  if rgp = 3 ∧ reg = 2 then some .sstat else (Reg.ofCode rgp reg).map .reg

/-- The code of a destination register: IFC and OWRCNTR are group 11, codes 1100 and 1101 (R165). -/
def DstReg.code : DstReg → BitVec 6
  | .reg r => r.code
  | .ifc => 3#2 ++ 12#4
  | .owrcntr => 3#2 ++ 13#4

/-- The destination register that RGP and REG name; SSTAT is no destination (R312). -/
def DstReg.ofCode (rgp : BitVec 2) (reg : BitVec 4) : Option DstReg :=
  if rgp = 3 ∧ reg = 12 then some .ifc
  else if rgp = 3 ∧ reg = 13 then some .owrcntr
  else (Reg.ofCode rgp reg).map .reg

/-- AMF of an ALU function (R167): 10000 to 11111. -/
def AluFn.code : AluFn → BitVec 5
  | .passY => 16#5
  | .incY => 17#5
  | .addC => 18#5
  | .add => 19#5
  | .notY => 20#5
  | .negY => 21#5
  | .subC => 22#5
  | .sub => 23#5
  | .decY => 24#5
  | .rsub => 25#5
  | .rsubC => 26#5
  | .notX => 27#5
  | .and => 28#5
  | .or => 29#5
  | .xor => 30#5
  | .abs => 31#5

/-- AMF of a MAC function (R253): 00001 to 01111. -/
def macCode : MacOp → MacFmt → BitVec 5
  | .mul, .rnd => 1#5
  | .acc, .rnd => 2#5
  | .sub, .rnd => 3#5
  | .mul, .ss => 4#5
  | .mul, .su => 5#5
  | .mul, .us => 6#5
  | .mul, .uu => 7#5
  | .acc, .ss => 8#5
  | .acc, .su => 9#5
  | .acc, .us => 10#5
  | .acc, .uu => 11#5
  | .sub, .ss => 12#5
  | .sub, .su => 13#5
  | .sub, .us => 14#5
  | .sub, .uu => 15#5

/-- The ALU function of the low four bits of an AMF code 1ffff (R167). -/
def AluFn.ofCode (c : BitVec 4) : AluFn :=
  match c.toNat with
  | 0 => .passY
  | 1 => .incY
  | 2 => .addC
  | 3 => .add
  | 4 => .notY
  | 5 => .negY
  | 6 => .subC
  | 7 => .sub
  | 8 => .decY
  | 9 => .rsub
  | 10 => .rsubC
  | 11 => .notX
  | 12 => .and
  | 13 => .or
  | 14 => .xor
  | _ => .abs

/-- The MAC function of an AMF code 00001 to 01111 (R253). -/
def macOfCode (amf : BitVec 5) : MacOp × MacFmt :=
  match amf.toNat with
  | 1 => (.mul, .rnd)
  | 2 => (.acc, .rnd)
  | 3 => (.sub, .rnd)
  | 4 => (.mul, .ss)
  | 5 => (.mul, .su)
  | 6 => (.mul, .us)
  | 7 => (.mul, .uu)
  | 8 => (.acc, .ss)
  | 9 => (.acc, .su)
  | 10 => (.acc, .us)
  | 11 => (.acc, .uu)
  | 12 => (.sub, .ss)
  | 13 => (.sub, .su)
  | 14 => (.sub, .us)
  | _ => (.sub, .uu)

/-- AMF, Yop and Xop of a computation clause. -/
def Calc.code : Calc → BitVec 10
  | .alu f x y => f.code ++ y.code ++ x.code
  | .mac op fmt x y => macCode op fmt ++ y.code ++ x.code

/-- The computation clause of AMF, Yop and Xop; none for AMF = 00000, the no-operation (R167, R421). -/
def Calc.ofCode (amf : BitVec 5) (y : BitVec 2) (x : BitVec 3) : Option Calc :=
  if amf = 0 then none
  else if amf.extractLsb' 4 1 = 1 then
    some (.alu (AluFn.ofCode (amf.extractLsb' 0 4)) (AluX.ofCode x) (AluY.ofCode y))
  else some (.mac (macOfCode amf).1 (macOfCode amf).2 (MacX.ofCode x) (MacY.ofCode y))

/-- The 4-bit code of a shifter function (R169). -/
def ShFn.code : ShFn → BitVec 4
  | .lshiftHi => 0#4
  | .lshiftHiOr => 1#4
  | .lshiftLo => 2#4
  | .lshiftLoOr => 3#4
  | .ashiftHi => 4#4
  | .ashiftHiOr => 5#4
  | .ashiftLo => 6#4
  | .ashiftLoOr => 7#4
  | .normHi => 8#4
  | .normHiOr => 9#4
  | .normLo => 10#4
  | .normLoOr => 11#4
  | .expHi => 12#4
  | .expHix => 13#4
  | .expLo => 14#4
  | .expAdj => 15#4

/-- A shifter function that a code names (R169). -/
def ShFn.ofCode (c : BitVec 4) : ShFn :=
  match c.toNat with
  | 0 => .lshiftHi
  | 1 => .lshiftHiOr
  | 2 => .lshiftLo
  | 3 => .lshiftLoOr
  | 4 => .ashiftHi
  | 5 => .ashiftHiOr
  | 6 => .ashiftLo
  | 7 => .ashiftLoOr
  | 8 => .normHi
  | 9 => .normHiOr
  | 10 => .normLo
  | 11 => .normLoOr
  | 12 => .expHi
  | 13 => .expHix
  | 14 => .expLo
  | _ => .expAdj

/-- The 1-bit code of G (R168). -/
def Dag.code : Dag → BitVec 1
  | .one => 0#1
  | .two => 1#1

/-- G that a code names (R168). -/
def Dag.ofCode (c : BitVec 1) : Dag :=
  match c.toNat with
  | 0 => .one
  | _ => .two

/-- The 2-bit code of DD (R171). -/
def DdReg.code : DdReg → BitVec 2
  | .ax0 => 0#2
  | .ax1 => 1#2
  | .mx0 => 2#2
  | .mx1 => 3#2

/-- DD that a code names (R171). -/
def DdReg.ofCode (c : BitVec 2) : DdReg :=
  match c.toNat with
  | 0 => .ax0
  | 1 => .ax1
  | 2 => .mx0
  | _ => .mx1

/-- The 2-bit code of PD (R171). -/
def PdReg.code : PdReg → BitVec 2
  | .ay0 => 0#2
  | .ay1 => 1#2
  | .my0 => 2#2
  | .my1 => 3#2

/-- PD that a code names (R171). -/
def PdReg.ofCode (c : BitVec 2) : PdReg :=
  match c.toNat with
  | 0 => .ay0
  | 1 => .ay1
  | 2 => .my0
  | _ => .my1

/-- The 2-bit code of FO (R174). -/
def PinOp.code : PinOp → BitVec 2
  | .keep => 0#2
  | .toggle => 1#2
  | .reset => 2#2
  | .set => 3#2

/-- FO that a code names (R174). -/
def PinOp.ofCode (c : BitVec 2) : PinOp :=
  match c.toNat with
  | 0 => .keep
  | 1 => .toggle
  | 2 => .reset
  | _ => .set

/-- The code of a mode-control field (R172). -/
def ModeOp.code : ModeOp → BitVec 2
  | .keep => 0#2
  | .disable => 2#2
  | .enable => 3#2

/-- A mode-control field: 11 enable, 10 disable, 00 and 01 no change (R172). -/
def ModeOp.ofCode (c : BitVec 2) : ModeOp :=
  match c.toNat with
  | 2 => .disable
  | 3 => .enable
  | _ => .keep

/-- The code of Spp (R173). -/
def StsOp.code : StsOp → BitVec 2
  | .keep => 0#2
  | .push => 2#2
  | .pop => 3#2

/-- Spp: 10 push, 11 pop, 00 and 01 no change (R173). -/
def StsOp.ofCode (c : BitVec 2) : StsOp :=
  match c.toNat with
  | 2 => .push
  | 3 => .pop
  | _ => .keep

/-- DV of a slow idle (R176). -/
def SlowDiv.code : SlowDiv → BitVec 4
  | .d16 => 1#4
  | .d32 => 2#4
  | .d64 => 4#4
  | .d128 => 8#4

/-- The divisor that DV names; 0000 is IDLE, every other value but the four is reserved (R176). -/
def SlowDiv.ofCode (c : BitVec 4) : Option SlowDiv :=
  match c.toNat with
  | 1 => some .d16
  | 2 => some .d32
  | 4 => some .d64
  | 8 => some .d128
  | _ => none

/-- The low two bits of an I or M register number (R168). -/
def fin4Code (n : Fin 4) : BitVec 2 := BitVec.ofFin n

/-- The register inside its DAG that a two-bit field names (R168). -/
def fin4OfCode (c : BitVec 2) : Fin 4 := c.toFin

/-- A one-bit field as a truth value. -/
def boolOfCode (c : BitVec 1) : Bool := c == 1#1

/-- YY and CC of a bit number (R166): `n = 4 * YY + CC`. -/
def bitNoYY (n : Fin 16) : BitVec 2 := (BitVec.ofFin n : BitVec 4).extractLsb' 2 2

/-- CC of a bit number (R166). -/
def bitNoCC (n : Fin 16) : BitVec 2 := (BitVec.ofFin n : BitVec 4).extractLsb' 0 2

/-- The bit number of YY and CC (R166). -/
def bitNoOfCode (yy cc : BitVec 2) : Fin 16 := (yy ++ cc : BitVec 4).toFin

/-- BO of a constant (R166): 01 plain, 11 complemented. -/
def Konst.bo (k : Konst) : BitVec 2 := if k.inv then 3#2 else 1#2

/-! ## The decoder -/

/-- Type 9 register form with an ALU code (R131); `f` is AMF's low four bits. -/
def decodeAluReg (f : AluFn) (z : Dest) (y : AluY) (x : AluX) (c : Cond) : Instr :=
  match f with
  | .passY => if y = .zero then .passZero z c else .passY z y c
  | .incY => if y = .zero then .passOne z c else .incY z y c
  | .addC => .addcXY z x y c
  | .add => if y = .zero then .passX z x c else .addXY z x y c
  | .notY => .notY z y c
  | .negY => .negY z y c
  | .subC => .subbXY z x y c
  | .sub => .subXY z x y c
  | .decY => if y = .zero then .passMinusOne z c else .decY z y c
  | .rsub => if y = .zero then .negX z x c else .rsubXY z x y c
  | .rsubC => .rsubbXY z x y c
  | .notX => .notX z x c
  | .and => .andXY z x y c
  | .or => .orXY z x y c
  | .xor => .xorXY z x y c
  | .abs => .absX z x c

/-- Type 9 constant form (R131, R166); the AMF codes outside R166's list are reserved. -/
def decodeAluConst (f : AluFn) (z : Dest) (k : Konst) (x : AluX) (c : Cond) : Option Instr :=
  match f with
  | .passY => some (.passK z k c)
  | .incY => some (.passKInc z k c)
  | .decY => some (.passKDec z k c)
  | .add => some (.addXK z x k c)
  | .addC => some (.addcXK z x k c)
  | .sub => some (.subXK z x k c)
  | .subC => some (.subbXK z x k c)
  | .rsub => some (.rsubXK z x k c)
  | .rsubC => some (.rsubbXK z x k c)
  | .and => some (if k.inv then .clrBit z k.n x c else .tstBit z k.n x c)
  | .or => some (if k.inv then .orXK z x k c else .setBit z k.n x c)
  | .xor => some (if k.inv then .xorXK z x k c else .tglBit z k.n x c)
  | .notY | .negY | .notX | .abs => none

/-- Type 9 register form with a MAC code (R131, R253). -/
def decodeMacReg (op : MacOp) (fmt : MacFmt) (z : Dest) (y : MacY) (x : MacX) (c : Cond) : Instr :=
  match op, fmt with
  | .mul, .ss => if x = .mx0 ∧ y = .zero then .clearMR z c else .mulSS z x y c
  | .mul, .su => .mulSU z x y c
  | .mul, .us => .mulUS z x y c
  | .mul, .uu => .mulUU z x y c
  | .mul, .rnd => .mulRND z x y c
  | .acc, .ss => if x = .mx0 ∧ y = .zero then .transferMR z c else .macSS z x y c
  | .acc, .su => .macSU z x y c
  | .acc, .us => .macUS z x y c
  | .acc, .uu => .macUU z x y c
  | .acc, .rnd => if x = .mx0 ∧ y = .zero then .transferMRRnd z c else .macRND z x y c
  | .sub, .ss => .msubSS z x y c
  | .sub, .su => .msubSU z x y c
  | .sub, .us => .msubUS z x y c
  | .sub, .uu => .msubUU z x y c
  | .sub, .rnd => .msubRND z x y c

/-- Type 9 squaring form (R131, R259); (SU) and (US) are reserved. -/
def decodeSquare (op : MacOp) (fmt : MacFmt) (z : Dest) (x : MacX) (c : Cond) : Option Instr :=
  match op, fmt with
  | .mul, .ss => some (.sqSS z x c)
  | .mul, .uu => some (.sqUU z x c)
  | .mul, .rnd => some (.sqRND z x c)
  | .acc, .ss => some (.macSqSS z x c)
  | .acc, .uu => some (.macSqUU z x c)
  | .acc, .rnd => some (.macSqRND z x c)
  | .sub, .ss => some (.msubSqSS z x c)
  | .sub, .uu => some (.msubSqUU z x c)
  | .sub, .rnd => some (.msubSqRND z x c)
  | _, .su | _, .us => none

/-- Type 9 (R131): the register, constant and squaring forms, and AMF = 00000 (R409). -/
def decodeType9 (w : PWord) : Option Instr :=
  let z := Dest.ofCode (w.extractLsb' 18 1)
  let amf := w.extractLsb' 13 5
  let yy := w.extractLsb' 11 2
  let x := w.extractLsb' 8 3
  let cc := w.extractLsb' 6 2
  let bo := w.extractLsb' 4 2
  let c := Cond.ofCode (w.extractLsb' 0 4)
  if amf = 0 then (if c = .notCe then none else some .nopType9)
  else if amf.extractLsb' 4 1 = 1 then
    let f := AluFn.ofCode (amf.extractLsb' 0 4)
    if cc = 0 ∧ bo = 0 then some (decodeAluReg f z (AluY.ofCode yy) (AluX.ofCode x) c)
    else if bo.extractLsb' 0 1 = 1 then
      decodeAluConst f z ⟨bitNoOfCode yy cc, boolOfCode (bo.extractLsb' 1 1)⟩ (AluX.ofCode x) c
    else none
  else
    let op := (macOfCode amf).1
    let fmt := (macOfCode amf).2
    if cc = 0 ∧ bo = 0 then some (decodeMacReg op fmt z (MacY.ofCode yy) (MacX.ofCode x) c)
    else if cc = 0 ∧ bo = 1 ∧ yy = 0 then decodeSquare op fmt z (MacX.ofCode x) c
    else none

/-- Type 16 (R138): the conditional shifter operation of SF (R169). -/
def decodeShift (f : ShFn) (x : ShX) (c : Cond) : Instr :=
  match f with
  | .lshiftHi => .lshiftHi x c
  | .lshiftHiOr => .lshiftHiOr x c
  | .lshiftLo => .lshiftLo x c
  | .lshiftLoOr => .lshiftLoOr x c
  | .ashiftHi => .ashiftHi x c
  | .ashiftHiOr => .ashiftHiOr x c
  | .ashiftLo => .ashiftLo x c
  | .ashiftLoOr => .ashiftLoOr x c
  | .normHi => .normHi x c
  | .normHiOr => .normHiOr x c
  | .normLo => .normLo x c
  | .normLoOr => .normLoOr x c
  | .expHi => .expHi x c
  | .expHix => .expHix x c
  | .expLo => .expLo x c
  | .expAdj => .expAdj x c

/-- Type 15 (R137): the shift immediate of SF; 1000 to 1111 are reserved (R302). -/
def decodeShiftImm (f : ShFn) (x : ShX) (e : BitVec 8) : Option Instr :=
  match f with
  | .lshiftHi => some (.lshiftImmHi x e)
  | .lshiftHiOr => some (.lshiftImmHiOr x e)
  | .lshiftLo => some (.lshiftImmLo x e)
  | .lshiftLoOr => some (.lshiftImmLoOr x e)
  | .ashiftHi => some (.ashiftImmHi x e)
  | .ashiftHiOr => some (.ashiftImmHiOr x e)
  | .ashiftLo => some (.ashiftImmLo x e)
  | .ashiftLoOr => some (.ashiftImmLoOr x e)
  | .normHi | .normHiOr | .normLo | .normLoOr | .expHi | .expHix | .expLo | .expAdj => none

/-- Type 17 (R139): a register move, or one of the two TOPPCSTACK forms (R395). -/
def decodeType17 (w : PWord) : Option Instr :=
  let dg := w.extractLsb' 10 2
  let sg := w.extractLsb' 8 2
  let dr := w.extractLsb' 4 4
  let sr := w.extractLsb' 0 4
  if w.extractLsb' 12 4 ≠ 0 then none
  else if sg = 3 ∧ sr = 15 then (Reg.ofCode dg dr).map .regFromTop
  else if dg = 3 ∧ dr = 15 then (Reg.ofCode sg sr).map .topFromReg
  else
    match DstReg.ofCode dg dr, SrcReg.ofCode sg sr with
    | some d, some r => some (.regMove d r)
    | _, _ => none

/-- Type 26 (R148): stack control, and the two words of the interrupt enable. -/
def decodeType26 (w : PWord) : Option Instr :=
  if w.extractLsb' 5 11 = 0 then
    some (.stackControl (boolOfCode (w.extractLsb' 4 1)) (boolOfCode (w.extractLsb' 3 1))
      (boolOfCode (w.extractLsb' 2 1)) (StsOp.ofCode (w.extractLsb' 0 2)))
  else if w.extractLsb' 0 16 = 0x0060 then some .enaInts
  else if w.extractLsb' 0 16 = 0x0040 then some .disInts
  else none

/-- The types whose top byte is 00 to 0F (R121 types 15 to 31), by the top byte (R122). -/
def decodeLow (w : PWord) : Option Instr :=
  match (w.extractLsb' 16 4).toNat with
  | 0x0 => if w.extractLsb' 0 16 = 0 then some .nop else none
  | 0x1 =>
    let d := Dreg.ofCode (w.extractLsb' 0 4)
    let a := w.extractLsb' 4 11
    some (if w.extractLsb' 15 1 = 0 then .ioRead d a else .ioWrite a d)
  | 0x2 =>
    if w.extractLsb' 12 4 = 0 then
      some (.flagOut (PinOp.ofCode (w.extractLsb' 10 2)) (PinOp.ofCode (w.extractLsb' 8 2))
        (PinOp.ofCode (w.extractLsb' 6 2)) (PinOp.ofCode (w.extractLsb' 4 2))
        (Cond.ofCode (w.extractLsb' 0 4)))
    else if w.extractLsb' 4 12 = 0x800 then
      if w.extractLsb' 0 4 = 0 then some .idle
      else (SlowDiv.ofCode (w.extractLsb' 0 4)).map .idleN
    else none
  | 0x3 =>
    let a : Addr := w.extractLsb' 2 2 ++ w.extractLsb' 4 12
    let on := boolOfCode (w.extractLsb' 1 1)
    some (if w.extractLsb' 0 1 = 0 then .jumpFlagIn on a else .callFlagIn on a)
  | 0x4 => decodeType26 w
  | 0x5 => if w.extractLsb' 0 16 = 0 then some .satMR else none
  | 0x6 =>
    if w.extractLsb' 13 3 = 0 ∧ w.extractLsb' 0 8 = 0 then
      some (.divs (AluY.ofCode (w.extractLsb' 11 2)) (AluX.ofCode (w.extractLsb' 8 3)))
    else none
  | 0x7 =>
    if w.extractLsb' 11 5 = 2 ∧ w.extractLsb' 0 8 = 0 then
      some (.divq (AluX.ofCode (w.extractLsb' 8 3)))
    else none
  | 0x8 => none
  | 0x9 =>
    if w.extractLsb' 5 11 = 0 then
      some (.modify (Dag.ofCode (w.extractLsb' 4 1)) (fin4OfCode (w.extractLsb' 2 2))
        (fin4OfCode (w.extractLsb' 0 2)))
    else none
  | 0xA =>
    let c := Cond.ofCode (w.extractLsb' 0 4)
    if w.extractLsb' 5 11 = 0 then some (if w.extractLsb' 4 1 = 0 then .rts c else .rti c) else none
  | 0xB =>
    let c := Cond.ofCode (w.extractLsb' 0 4)
    let i := fin4OfCode (w.extractLsb' 6 2)
    if w.extractLsb' 8 8 = 0 ∧ w.extractLsb' 5 1 = 0 then
      some (if w.extractLsb' 4 1 = 0 then .jumpInd i c else .callInd i c)
    else none
  | 0xC =>
    if w.extractLsb' 0 2 = 0 then
      some (.modeControl (ModeOp.ofCode (w.extractLsb' 14 2)) (ModeOp.ofCode (w.extractLsb' 12 2))
        (ModeOp.ofCode (w.extractLsb' 10 2)) (ModeOp.ofCode (w.extractLsb' 8 2))
        (ModeOp.ofCode (w.extractLsb' 6 2)) (ModeOp.ofCode (w.extractLsb' 4 2))
        (ModeOp.ofCode (w.extractLsb' 2 2)))
    else none
  | 0xD => decodeType17 w
  | 0xE =>
    if w.extractLsb' 15 1 = 0 ∧ w.extractLsb' 4 4 = 0 then
      (ShX.ofCode (w.extractLsb' 8 3)).map fun x =>
        decodeShift (ShFn.ofCode (w.extractLsb' 11 4)) x (Cond.ofCode (w.extractLsb' 0 4))
    else none
  | _ =>
    if w.extractLsb' 15 1 = 0 then
      (ShX.ofCode (w.extractLsb' 8 3)).bind fun x =>
        decodeShiftImm (ShFn.ofCode (w.extractLsb' 11 4)) x (w.extractLsb' 0 8)
    else none

/-- The types whose top byte is 10 to 1F (R122): 14, 13, 12, 11 and 10. -/
def decodeOne (w : PWord) : Option Instr :=
  let f := ShFn.ofCode (w.extractLsb' 11 4)
  let d := Dreg.ofCode (w.extractLsb' 4 4)
  let i := fin4OfCode (w.extractLsb' 2 2)
  let m := fin4OfCode (w.extractLsb' 0 2)
  if w.extractLsb' 19 1 = 1 then
    let a := w.extractLsb' 4 14
    let c := Cond.ofCode (w.extractLsb' 0 4)
    some (if w.extractLsb' 18 1 = 0 then .jump a c else .call a c)
  else if w.extractLsb' 18 1 = 1 then
    some (.doUntil (w.extractLsb' 4 14) (Term.ofCode (w.extractLsb' 0 4)))
  else
    (ShX.ofCode (w.extractLsb' 8 3)).bind fun x =>
      if w.extractLsb' 17 1 = 1 then
        let g := Dag.ofCode (w.extractLsb' 16 1)
        some (if w.extractLsb' 15 1 = 0 then .shiftDmRead g f x d i m else .shiftDmWrite g f x d i m)
      else if w.extractLsb' 16 1 = 1 then
        some (if w.extractLsb' 15 1 = 0 then .shiftPmRead f x d i m else .shiftPmWrite f x d i m)
      else if w.extractLsb' 15 1 = 0 then some (.shiftMove f x d (Dreg.ofCode (w.extractLsb' 0 4)))
      else none

/-- Type 8 (R130), with the NONE word (R240) on `EXT_ALU_MAC` parts. -/
def decodeType8 (c : Config) (w : PWord) : Instr :=
  let z := Dest.ofCode (w.extractLsb' 18 1)
  let k := Calc.ofCode (w.extractLsb' 13 5) (w.extractLsb' 11 2) (w.extractLsb' 8 3)
  let d := Dreg.ofCode (w.extractLsb' 4 4)
  let r := Dreg.ofCode (w.extractLsb' 0 4)
  match k with
  | none => .compMove .result none d r
  | some (.alu f x y) =>
    if c.extAluMac && isNoneWord z k d r then .noneAlu f x y else .compMove z k d r
  | some (.mac _ _ _ _) => .compMove z k d r

/-- The types whose top byte is 20 to 3F (R122): 9, 8 and 7. -/
def decodeTwoThree (c : Config) (w : PWord) : Option Instr :=
  if w.extractLsb' 20 1 = 1 then
    (DstReg.ofCode (w.extractLsb' 18 2) (w.extractLsb' 0 4)).map fun d => .loadReg d (w.extractLsb' 4 14)
  else if w.extractLsb' 19 1 = 1 then some (decodeType8 c w)
  else decodeType9 w

/-- Types 4 and 5 (R126, R127): a computation with a memory access, or the plain move for AMF = 00000. -/
def decodeMem (pm : Bool) (w : PWord) : Instr :=
  let g := Dag.ofCode (w.extractLsb' 20 1)
  let z := Dest.ofCode (w.extractLsb' 18 1)
  let d := Dreg.ofCode (w.extractLsb' 4 4)
  let i := fin4OfCode (w.extractLsb' 2 2)
  let m := fin4OfCode (w.extractLsb' 0 2)
  let wr := w.extractLsb' 19 1 = 1
  match Calc.ofCode (w.extractLsb' 13 5) (w.extractLsb' 11 2) (w.extractLsb' 8 3) with
  | none =>
    if pm then (if wr then .pmWrite d i m else .pmRead d i m)
    else (if wr then .dmWrite g d i m else .dmRead g d i m)
  | some k =>
    if pm then (if wr then .compPmWrite z k d i m else .compPmRead z k d i m)
    else (if wr then .compDmWrite g z k d i m else .compDmRead g z k d i m)

/-- Type 3 (R125): direct data-memory access. -/
def decodeType3 (w : PWord) : Option Instr :=
  let a := w.extractLsb' 4 14
  let rgp := w.extractLsb' 18 2
  let reg := w.extractLsb' 0 4
  if w.extractLsb' 20 1 = 0 then (DstReg.ofCode rgp reg).map fun d => .dmReadDirect d a
  else (SrcReg.ofCode rgp reg).map fun r => .dmWriteDirect a r

/-- Type 1 (R123): the double read, with or without a computation. -/
def decodeType1 (w : PWord) : Instr :=
  let pd := PdReg.ofCode (w.extractLsb' 20 2)
  let dd := DdReg.ofCode (w.extractLsb' 18 2)
  let pi := fin4OfCode (w.extractLsb' 6 2)
  let pm := fin4OfCode (w.extractLsb' 4 2)
  let di := fin4OfCode (w.extractLsb' 2 2)
  let dm := fin4OfCode (w.extractLsb' 0 2)
  match Calc.ofCode (w.extractLsb' 13 5) (w.extractLsb' 11 2) (w.extractLsb' 8 3) with
  | none => .dualRead pd dd pi pm di dm
  | some k => .compDualRead k pd dd pi pm di dm

/-- The row a word is read as (R122, R197), by its top four bits. -/
def decodeRow (c : Config) (w : PWord) : Option Instr :=
  match (w.extractLsb' 20 4).toNat with
  | 0x0 => decodeLow w
  | 0x1 => decodeOne w
  | 0x2 | 0x3 => decodeTwoThree c w
  | 0x4 => some (.loadDreg (Dreg.ofCode (w.extractLsb' 0 4)) (w.extractLsb' 4 16))
  | 0x5 => some (decodeMem true w)
  | 0x6 | 0x7 => some (decodeMem false w)
  | 0x8 | 0x9 => decodeType3 w
  | 0xA | 0xB =>
    some (.dmWriteImm (Dag.ofCode (w.extractLsb' 20 1)) (w.extractLsb' 4 16)
      (fin4OfCode (w.extractLsb' 2 2)) (fin4OfCode (w.extractLsb' 0 2)))
  | _ => some (decodeType1 w)

/-- The decoder (R455): the instruction of a word on a part with the parameters `c`; none for a
reserved word (R180). -/
def decode (c : Config) (w : PWord) : Option Instr :=
  (decodeRow c w).filter (wellFormed c)

/-- The host's view of the decoder, on the reset configuration: the table's words have one 24-bit word. -/
def decodeTableWord (nbits w : Nat) : Option Instr :=
  decode Config.standard (BitVec.ofNat 24 (w % 2 ^ nbits))

/-! ## The encoder -/

/-- A type 9 register-form ALU word (R131). -/
def encAlu (f : AluFn) (z : Dest) (y : AluY) (x : AluX) (c : Cond) : PWord :=
  0b00100#5 ++ z.code ++ f.code ++ y.code ++ x.code ++ 0#4 ++ c.code

/-- A type 9 constant-form ALU word (R131, R166). -/
def encAluK (f : AluFn) (z : Dest) (k : Konst) (x : AluX) (c : Cond) : PWord :=
  0b00100#5 ++ z.code ++ f.code ++ bitNoYY k.n ++ x.code ++ bitNoCC k.n ++ k.bo ++ c.code

/-- A type 9 register-form MAC word (R131). -/
def encMac (op : MacOp) (fmt : MacFmt) (z : Dest) (y : MacY) (x : MacX) (c : Cond) : PWord :=
  0b00100#5 ++ z.code ++ macCode op fmt ++ y.code ++ x.code ++ 0#4 ++ c.code

/-- A type 9 squaring-form word (R131). -/
def encSq (op : MacOp) (fmt : MacFmt) (z : Dest) (x : MacX) (c : Cond) : PWord :=
  0b00100#5 ++ z.code ++ macCode op fmt ++ 0#2 ++ x.code ++ 1#4 ++ c.code

/-- A type 16 word (R138). -/
def encShift (f : ShFn) (x : ShX) (c : Cond) : PWord :=
  0b000011100#9 ++ f.code ++ x.code ++ 0#4 ++ c.code

/-- A type 15 word (R137). -/
def encShiftImm (f : ShFn) (x : ShX) (e : BitVec 8) : PWord :=
  0b000011110#9 ++ f.code ++ x.code ++ e

/-- A type 4 word (R126); `wr` is D, `k` is AMF, Yop and Xop. -/
def encDm (g : Dag) (wr : BitVec 1) (z : Dest) (k : BitVec 10) (d : Dreg) (i m : Fin 4) : PWord :=
  0b011#3 ++ g.code ++ wr ++ z.code ++ k ++ d.code ++ fin4Code i ++ fin4Code m

/-- A type 5 word (R127). -/
def encPm (wr : BitVec 1) (z : Dest) (k : BitVec 10) (d : Dreg) (i m : Fin 4) : PWord :=
  0b0101#4 ++ wr ++ z.code ++ k ++ d.code ++ fin4Code i ++ fin4Code m

/-- A type 12 word (R134). -/
def encShiftDm (g : Dag) (wr : BitVec 1) (f : ShFn) (x : ShX) (d : Dreg) (i m : Fin 4) : PWord :=
  0b0001001#7 ++ g.code ++ wr ++ f.code ++ x.code ++ d.code ++ fin4Code i ++ fin4Code m

/-- A type 13 word (R135). -/
def encShiftPm (wr : BitVec 1) (f : ShFn) (x : ShX) (d : Dreg) (i m : Fin 4) : PWord :=
  0b00010001#8 ++ wr ++ f.code ++ x.code ++ d.code ++ fin4Code i ++ fin4Code m

/-- A type 1 word (R123). -/
def encDual (pd : PdReg) (dd : DdReg) (k : BitVec 10) (pi pm di dm : Fin 4) : PWord :=
  0b11#2 ++ pd.code ++ dd.code ++ k ++ fin4Code pi ++ fin4Code pm ++ fin4Code di ++ fin4Code dm

/-- The word of an instruction, with every ignored field 0 (R121, R182). -/
def encode (i : Instr) : PWord :=
  match i with
  | .addXY z x y c => encAlu .add z y x c
  | .addXK z x k c => encAluK .add z k x c
  | .addcXY z x y c => encAlu .addC z y x c
  | .addcXK z x k c => encAluK .addC z k x c
  | .subXY z x y c => encAlu .sub z y x c
  | .subXK z x k c => encAluK .sub z k x c
  | .subbXY z x y c => encAlu .subC z y x c
  | .subbXK z x k c => encAluK .subC z k x c
  | .rsubXY z x y c => encAlu .rsub z y x c
  | .rsubXK z x k c => encAluK .rsub z k x c
  | .rsubbXY z x y c => encAlu .rsubC z y x c
  | .rsubbXK z x k c => encAluK .rsubC z k x c
  | .andXY z x y c => encAlu .and z y x c
  | .andXK z x k c => encAluK .and z k x c
  | .orXY z x y c => encAlu .or z y x c
  | .orXK z x k c => encAluK .or z k x c
  | .xorXY z x y c => encAlu .xor z y x c
  | .xorXK z x k c => encAluK .xor z k x c
  | .tstBit z n x c => encAluK .and z ⟨n, false⟩ x c
  | .setBit z n x c => encAluK .or z ⟨n, false⟩ x c
  | .clrBit z n x c => encAluK .and z ⟨n, true⟩ x c
  | .tglBit z n x c => encAluK .xor z ⟨n, false⟩ x c
  | .passY z y c => encAlu .passY z y .ax0 c
  | .passZero z c => encAlu .passY z .zero .ax0 c
  | .passX z x c => encAlu .add z .zero x c
  | .passOne z c => encAlu .incY z .zero .ax0 c
  | .passMinusOne z c => encAlu .decY z .zero .ax0 c
  | .passK z k c => encAluK .passY z k .ax0 c
  | .passKInc z k c => encAluK .incY z k .ax0 c
  | .passKDec z k c => encAluK .decY z k .ax0 c
  | .negX z x c => encAlu .rsub z .zero x c
  | .negY z y c => encAlu .negY z y .ax0 c
  | .notX z x c => encAlu .notX z .ay0 x c
  | .notY z y c => encAlu .notY z y .ax0 c
  | .absX z x c => encAlu .abs z .ay0 x c
  | .incY z y c => encAlu .incY z y .ax0 c
  | .decY z y c => encAlu .decY z y .ax0 c
  | .divs y x => 0b00000110000#11 ++ y.code ++ x.code ++ 0#8
  | .divq x => 0b0000011100010#13 ++ x.code ++ 0#8
  | .noneAlu f x y => 0b001010#6 ++ f.code ++ y.code ++ x.code ++ 0b10101010#8
  | .mulSS z x y c => encMac .mul .ss z y x c
  | .mulSU z x y c => encMac .mul .su z y x c
  | .mulUS z x y c => encMac .mul .us z y x c
  | .mulUU z x y c => encMac .mul .uu z y x c
  | .mulRND z x y c => encMac .mul .rnd z y x c
  | .macSS z x y c => encMac .acc .ss z y x c
  | .macSU z x y c => encMac .acc .su z y x c
  | .macUS z x y c => encMac .acc .us z y x c
  | .macUU z x y c => encMac .acc .uu z y x c
  | .macRND z x y c => encMac .acc .rnd z y x c
  | .msubSS z x y c => encMac .sub .ss z y x c
  | .msubSU z x y c => encMac .sub .su z y x c
  | .msubUS z x y c => encMac .sub .us z y x c
  | .msubUU z x y c => encMac .sub .uu z y x c
  | .msubRND z x y c => encMac .sub .rnd z y x c
  | .sqSS z x c => encSq .mul .ss z x c
  | .sqUU z x c => encSq .mul .uu z x c
  | .sqRND z x c => encSq .mul .rnd z x c
  | .macSqSS z x c => encSq .acc .ss z x c
  | .macSqUU z x c => encSq .acc .uu z x c
  | .macSqRND z x c => encSq .acc .rnd z x c
  | .msubSqSS z x c => encSq .sub .ss z x c
  | .msubSqUU z x c => encSq .sub .uu z x c
  | .msubSqRND z x c => encSq .sub .rnd z x c
  | .clearMR z c => encMac .mul .ss z .zero .mx0 c
  | .transferMR z c => encMac .acc .ss z .zero .mx0 c
  | .transferMRRnd z c => encMac .acc .rnd z .zero .mx0 c
  | .satMR => 0x050000#24
  | .lshiftHi x c => encShift .lshiftHi x c
  | .lshiftHiOr x c => encShift .lshiftHiOr x c
  | .lshiftLo x c => encShift .lshiftLo x c
  | .lshiftLoOr x c => encShift .lshiftLoOr x c
  | .ashiftHi x c => encShift .ashiftHi x c
  | .ashiftHiOr x c => encShift .ashiftHiOr x c
  | .ashiftLo x c => encShift .ashiftLo x c
  | .ashiftLoOr x c => encShift .ashiftLoOr x c
  | .normHi x c => encShift .normHi x c
  | .normHiOr x c => encShift .normHiOr x c
  | .normLo x c => encShift .normLo x c
  | .normLoOr x c => encShift .normLoOr x c
  | .expHi x c => encShift .expHi x c
  | .expHix x c => encShift .expHix x c
  | .expLo x c => encShift .expLo x c
  | .expAdj x c => encShift .expAdj x c
  | .lshiftImmHi x e => encShiftImm .lshiftHi x e
  | .lshiftImmHiOr x e => encShiftImm .lshiftHiOr x e
  | .lshiftImmLo x e => encShiftImm .lshiftLo x e
  | .lshiftImmLoOr x e => encShiftImm .lshiftLoOr x e
  | .ashiftImmHi x e => encShiftImm .ashiftHi x e
  | .ashiftImmHiOr x e => encShiftImm .ashiftHiOr x e
  | .ashiftImmLo x e => encShiftImm .ashiftLo x e
  | .ashiftImmLoOr x e => encShiftImm .ashiftLoOr x e
  | .regMove d r => 0x0D0#12 ++ d.code.extractLsb' 4 2 ++ r.code.extractLsb' 4 2 ++ d.code.extractLsb' 0 4 ++ r.code.extractLsb' 0 4
  | .loadDreg d v => 0b0100#4 ++ v ++ d.code
  | .loadReg d v => 0b0011#4 ++ d.code.extractLsb' 4 2 ++ v ++ d.code.extractLsb' 0 4
  | .dmReadDirect d a => 0b1000#4 ++ d.code.extractLsb' 4 2 ++ a ++ d.code.extractLsb' 0 4
  | .dmWriteDirect a r => 0b1001#4 ++ r.code.extractLsb' 4 2 ++ a ++ r.code.extractLsb' 0 4
  | .dmRead g d i m => encDm g 0#1 .result 0#10 d i m
  | .dmWrite g r i m => encDm g 1#1 .result 0#10 r i m
  | .dmWriteImm g v i m => 0b101#3 ++ g.code ++ v ++ fin4Code i ++ fin4Code m
  | .pmRead d i m => encPm 0#1 .result 0#10 d i m
  | .pmWrite r i m => encPm 1#1 .result 0#10 r i m
  | .ioRead d a => 0x01#8 ++ 0#1 ++ a ++ d.code
  | .ioWrite a r => 0x01#8 ++ 1#1 ++ a ++ r.code
  | .jump a c => 0b000110#6 ++ a ++ c.code
  | .jumpInd i c => 0x0B00#16 ++ fin4Code i ++ 0#2 ++ c.code
  | .call a c => 0b000111#6 ++ a ++ c.code
  | .callInd i c => 0x0B00#16 ++ fin4Code i ++ 1#2 ++ c.code
  | .jumpFlagIn on a => 0x03#8 ++ a.extractLsb' 0 12 ++ a.extractLsb' 12 2 ++ BitVec.ofBool on ++ 0#1
  | .callFlagIn on a => 0x03#8 ++ a.extractLsb' 0 12 ++ a.extractLsb' 12 2 ++ BitVec.ofBool on ++ 1#1
  | .flagOut f2 f1 f0 fo c => 0x020#12 ++ f2.code ++ f1.code ++ f0.code ++ fo.code ++ c.code
  | .rts c => 0x0A000#20 ++ c.code
  | .rti c => 0x0A001#20 ++ c.code
  | .doUntil a t => 0b000101#6 ++ a ++ t.code
  | .idle => 0x028000#24
  | .idleN n => 0x02800#20 ++ n.code
  | .stackControl pp lp cp sp => 0x0400#16 ++ 0#3 ++ BitVec.ofBool pp ++ BitVec.ofBool lp ++ BitVec.ofBool cp ++ sp.code
  | .regFromTop d => 0x0D0#12 ++ d.code.extractLsb' 4 2 ++ 3#2 ++ d.code.extractLsb' 0 4 ++ 15#4
  | .topFromReg r => 0x0D0#12 ++ 3#2 ++ r.code.extractLsb' 4 2 ++ 15#4 ++ r.code.extractLsb' 0 4
  | .modeControl ti mm as ol br sr gm => 0x0C#8 ++ ti.code ++ mm.code ++ as.code ++ ol.code ++ br.code ++ sr.code ++ gm.code ++ 0#2
  | .modify g i m => 0x0900#16 ++ 0#3 ++ g.code ++ fin4Code i ++ fin4Code m
  | .nop => 0x000000#24
  | .nopType9 => 0x200000#24
  | .enaInts => 0x040060#24
  | .disInts => 0x040040#24
  | .compDmRead g z k d i m => encDm g 0#1 z k.code d i m
  | .compPmRead z k d i m => encPm 0#1 z k.code d i m
  | .shiftDmRead g f x d i m => encShiftDm g 0#1 f x d i m
  | .shiftPmRead f x d i m => encShiftPm 0#1 f x d i m
  | .compMove z k d r => 0b00101#5 ++ z.code ++ (match k with | some k => k.code | none => 0#10) ++ d.code ++ r.code
  | .shiftMove f x d r => 0b000100000#9 ++ f.code ++ x.code ++ d.code ++ r.code
  | .compDmWrite g z k r i m => encDm g 1#1 z k.code r i m
  | .compPmWrite z k r i m => encPm 1#1 z k.code r i m
  | .shiftDmWrite g f x r i m => encShiftDm g 1#1 f x r i m
  | .shiftPmWrite f x r i m => encShiftPm 1#1 f x r i m
  | .dualRead pd dd pi pm di dm => encDual pd dd 0#10 pi pm di dm
  | .compDualRead k pd dd pi pm di dm => encDual pd dd k.code pi pm di dm

end Sys2Proof
end

