-- ==== Sys2Proof/Machine/Bits.lean ====
section
/-!
DEFINITION. Bit-field and extension helpers the machine shares: setting one bit, keeping the low bits
of a register narrower than its field in `State`, bit reversal and the exponent detector's bit count.
-/

namespace Sys2Proof.Machine

/-- `v` with bit `n` set to `b`. -/
def setBitTo {w : Nat} (v : BitVec w) (n : Nat) (b : Bool) : BitVec w :=
  if b then v ||| BitVec.twoPow w n else v &&& ~~~(BitVec.twoPow w n)

/-- The low `n` bits of `v`, the rest 0: a register of `n` bits held in a field of 16 (R46, R47, R48). -/
def keepLow (n : Nat) (v : BitVec 16) : BitVec 16 := (v.setWidth n).setWidth 16

/-- `rev14` (R95): bit `k` of the result is bit `13 - k` of `a`. -/
def rev14 (a : Addr) : Addr := a.reverse

/-- How many of the bits `n - 1`, `n - 2`, … of `x`, from the highest down, equal `b` before the first
that does not (R283, R292). -/
def leadingRun (b : Bool) (x : Word) : Nat → Nat
  | 0 => 0
  | n + 1 => if x.getLsbD n = b then leadingRun b x n + 1 else 0

/-- The least `k ≤ fuel` with `2 ^ (n + k) ≥ l`, added to `n` (R93's `n`): counts up from `n`. -/
def leastPow (l : Nat) : Nat → Nat → Nat
  | 0, n => n
  | fuel + 1, n => if l ≤ 2 ^ n then n else leastPow l fuel (n + 1)

end Sys2Proof.Machine
end

