-- ==== Sys2Proof/Machine/Memory.lean ====
section
/-!
DEFINITION. Memory as plain data: byte cells in one canonical form (addresses strictly rising). A word
of data memory at address `a` is the cells `2a` and `2a + 1`, a word of program memory the cells `3a`,
`3a + 1` and `3a + 2`, least significant byte first. The machine reads and writes whole words only
(R81, R88), so this layout cannot be seen by a program (DESIGN CHOICE, log 4). An address that is not
listed holds no value: the word was never written (R82, log 3).
-/

namespace Sys2Proof.Machine

/-- The cells of one memory. -/
abbrev Memory := List Host.Cell

/-- The byte at a cell; none where nothing was written (log 3). -/
def Memory.read : Memory → Nat → Option (BitVec 8)
  | [], _ => none
  | c :: m, a => if a = c.1 then some c.2 else Memory.read m a

/-- Writes one byte, keeping the cells in order. -/
def Memory.write : Memory → Nat → BitVec 8 → Memory
  | [], a, v => [(a, v)]
  | c :: m, a, v =>
    if a < c.1 then (a, v) :: c :: m
    else if a = c.1 then (a, v) :: m
    else c :: Memory.write m a v

/-- The canonical form: the addresses rise strictly. (No listed byte can equal what an unlisted address
reads as, since that is no byte at all.) -/
def Memory.wf : Memory → Bool
  | [] => true
  | c :: m => (m.head?.all fun d => decide (c.1 < d.1)) && Memory.wf m

/-- The data-memory word at `a`, if it was written. -/
def Memory.readDm (m : Memory) (a : Addr) : Option Word :=
  match Memory.read m (2 * a.toNat), Memory.read m (2 * a.toNat + 1) with
  | some lo, some hi => some (hi ++ lo)
  | _, _ => none

/-- Writes the data-memory word at `a`. -/
def Memory.writeDm (m : Memory) (a : Addr) (v : Word) : Memory :=
  Memory.write (Memory.write m (2 * a.toNat) (v.extractLsb' 0 8)) (2 * a.toNat + 1) (v.extractLsb' 8 8)

/-- The program-memory word at `a`, if it was written. -/
def Memory.readPm (m : Memory) (a : Addr) : Option PWord :=
  match Memory.read m (3 * a.toNat), Memory.read m (3 * a.toNat + 1), Memory.read m (3 * a.toNat + 2) with
  | some b0, some b1, some b2 => some (b2 ++ b1 ++ b0)
  | _, _, _ => none

/-- Writes the program-memory word at `a`. -/
def Memory.writePm (m : Memory) (a : Addr) (v : PWord) : Memory :=
  Memory.write
    (Memory.write (Memory.write m (3 * a.toNat) (v.extractLsb' 0 8)) (3 * a.toNat + 1) (v.extractLsb' 8 8))
    (3 * a.toNat + 2) (v.extractLsb' 16 8)

/-- `PM_DIRTY` (R85) is a set of addresses, held as a strictly rising list: adds one. -/
def addToSet : List Nat → Nat → List Nat
  | [], a => [a]
  | b :: l, a => if a < b then a :: b :: l else if a = b then b :: l else b :: addToSet l a

end Sys2Proof.Machine
end

