-- ==== Sys2Proof/Machine/State.lean ====
section
/-!
DEFINITION. The state of the machine (R20), its faults (R452) and the state right after reset (R59,
R491). Every piece of state that 10_state.md and 20_memory.md name is a field; the fields that are the
model's own (`cfg`, `draws`, `events`, `irqInputs`) say so.
-/

namespace Sys2Proof.Machine

/-- The memory spaces (R80). -/
inductive Space where
  | pm | dm | io
deriving DecidableEq, Repr

/-- The four hardware stacks (R32 to R35). -/
inductive StackId where
  | pc | loop | counter | status
deriving DecidableEq, Repr

/-- The output flag pins (R53). -/
inductive Pin where
  | flagOut | fl0 | fl1 | fl2
deriving DecidableEq, Repr

/-- An entry of the run's event history (R453): what an instruction exchanged with the world outside. -/
inductive Event where
  /-- `DevRead(space, a)` with the value the device supplied (R82, R84, R86). -/
  | devRead (sp : Space) (a : Addr) (v : PWord)
  /-- `DevWrite(space, a, v)` (R83, R85, R87). -/
  | devWrite (sp : Space) (a : Addr) (v : PWord)
  /-- `DevRead(r)` of a serial port register (R472). -/
  | portRead (p : Port) (v : Word)
  /-- `DevWrite(r, v)` of a serial port register (R472). -/
  | portWrite (p : Port) (v : Word)
  /-- `PinWrite(p, value)` (R358). -/
  | pinWrite (p : Pin) (v : Bool)
  /-- `IfcWrite(v)` (R463). -/
  | ifcWrite (v : BitVec 16)
deriving DecidableEq, Repr

/-- One copy of the banked computational registers (R28). -/
structure Bank where
  ax0 : Word
  ax1 : Word
  ay0 : Word
  ay1 : Word
  ar : Word
  af : Word
  mx0 : Word
  mx1 : Word
  my0 : Word
  my1 : Word
  mf : Word
  mr0 : Word
  mr1 : Word
  mr2 : BitVec 8
  si : Word
  se : BitVec 8
  sb : BitVec 5
  sr0 : Word
  sr1 : Word
deriving DecidableEq, Repr

/-- A loop stack entry (R33): the address of the last instruction of the loop and the termination code. -/
structure LoopEntry where
  addr : Addr
  term : Term
deriving DecidableEq, Repr

/-- A status stack entry (R35). -/
structure StatusEntry where
  astat : BitVec 8
  mstat : BitVec 7
  imask : BitVec 16
deriving DecidableEq, Repr

/-- The divisor of the IDLE state (R56): 1 for IDLE, n for IDLE (n). -/
inductive IdleDiv where
  | d1 | d16 | d32 | d64 | d128
deriving DecidableEq, Repr

/-- The state of the machine (R20). -/
structure State where
  /-- The implementation parameters (R5); the model's own field, changed by no step (log 5). -/
  cfg : Config
  /-- The primary register bank (R28). -/
  prim : Bank
  /-- The secondary register bank (R28). -/
  sec : Bank
  /-- I0 to I7 (R29). -/
  ireg : Vector Addr 8
  /-- M0 to M7 (R29). -/
  mreg : Vector Addr 8
  /-- L0 to L7 (R29). -/
  lreg : Vector Addr 8
  /-- PX (R30). -/
  px : BitVec 8
  /-- The program counter (R31). -/
  pc : Addr
  /-- The PC stack, top first (R32). -/
  pcStack : List Addr
  /-- The loop stack, top first (R33). -/
  loopStack : List LoopEntry
  /-- CNTR (R34). -/
  cntr : Addr
  /-- CNTR_VALID (R55). -/
  cntrValid : Bool
  /-- A count has expired with no count saved (R162) since reset. While CNTR_VALID is 0 it tells an expired count, which
  no move may read (R318), from a CNTR that nothing has written; the model's own field (log 12). -/
  cntrExpired : Bool
  /-- The counter stack, top first (R34). -/
  cntrStack : List Addr
  /-- The status stack, top first (R35). -/
  statusStack : List StatusEntry
  /-- ASTAT (R36). -/
  astat : BitVec 8
  /-- MSTAT (R41). -/
  mstat : BitVec 7
  /-- The sticky overflow bit of the PC stack, SSTAT bit 1 (R43, R45). -/
  pso : Bool
  /-- The sticky overflow bit of the counter stack, SSTAT bit 3 (R43, R45). -/
  cso : Bool
  /-- The sticky overflow bit of the status stack, SSTAT bit 5 (R43, R45). -/
  sso : Bool
  /-- The sticky overflow bit of the loop stack, SSTAT bit 7 (R43, R45). -/
  lso : Bool
  /-- IMASK (R46), `IMASK_BITS` wide: the bits above are 0. -/
  imask : BitVec 16
  /-- ICNTL (R47), `ICNTL_BITS` wide: the bits above are 0. -/
  icntl : BitVec 16
  /-- INTS_EN (R50). -/
  intsEn : Bool
  /-- IRQ_PENDING (R51): bit `latch` of each source of the table. -/
  irqPending : BitVec 16
  /-- FI_LATCH (R52): the level the last test of the pin drew. -/
  fiLatch : Bool
  /-- The level of the pin FO (R53). -/
  flagOut : Bool
  /-- The level of the pin FL0 (R53). -/
  fl0 : Bool
  /-- The level of the pin FL1 (R53). -/
  fl1 : Bool
  /-- The level of the pin FL2 (R53). -/
  fl2 : Bool
  /-- PCPOP_PENDING (R54). -/
  pcPopPending : Bool
  /-- IDLE (R56). -/
  idle : Bool
  /-- The divisor of the IDLE state (R56). -/
  idleDiv : IdleDiv
  /-- Program memory (R80). -/
  pm : Memory
  /-- Data memory (R80). -/
  dm : Memory
  /-- PM_DIRTY (R85). -/
  pmDirty : List Nat
  /-- How many free values have been drawn; the model's own field (log 10). -/
  draws : Nat
  /-- The event history, newest first (R453); the model's own field (log 19). -/
  events : List Event
  /-- The interrupt requests the environment makes at each of the next steps (R462's
  `environment_step`), the next first; the model's own field (log 9). -/
  irqInputs : List (BitVec 16)
deriving DecidableEq, Repr

/-- The faults of the model (R452): where the spec says that the source does not define what the
hardware does. Stopping there is safe: no claim is made of what follows. -/
inductive Fault where
  /-- Raised by the step for a word that no row of the opcode table defines on this part (R180, R455). Safe. -/
  | reservedInstruction (w : PWord)
  /-- Raised by a read or a fetch of a memory word that nothing has written (R82, R84). Safe. -/
  | uninitRead (sp : Space) (a : Addr)
  /-- `UninitRead(CNTR)`: raised by a move that reads CNTR after its count expired, while CNTR_VALID is 0 (R318). Safe. -/
  | uninitCntr
  /-- Raised by an access to an address that `MEM_MAP` backs with nothing, or a write to ROM (R82 to R85). Safe. -/
  | unmappedAccess (sp : Space) (a : Addr)
  /-- Raised by a post-modify outside the cases of the modulus rule (R93). Safe. -/
  | circular
  /-- Raised by a fetch from an address that a store wrote (R112). Safe. -/
  | fetchAfterPmWrite (a : Addr)
  /-- Raised when CE or NOT CE is evaluated with CNTR = 0 (R162). Safe. -/
  | ceWithZeroCounter
  /-- Raised by a forbidden last instruction of a loop (R373). Safe. -/
  | loopEnd
  /-- Raised by a use of the PC stack, or an interrupt, while a delayed pop is pending (R396, R462). Safe. -/
  | pcPopHazard
  /-- Raised by a multifunction instruction with two writers of one register (R422). Safe. -/
  | indeterminate
  /-- Raised by a push onto a full stack, but for DO UNTIL (R454). Safe. -/
  | stackOverflow (k : StackId)
  /-- Raised by a pop, or a read of the top, of an empty stack (R454). Safe. -/
  | stackUnderflow (k : StackId)
deriving DecidableEq, Repr

/-- The refusals of the model. -/
inductive Refusal where
  /-- Raised by an arm of `exec` whose instruction has no meaning yet; no arm raises it now. Safe. -/
  | notModelled (mnemonic : String)
deriving DecidableEq, Repr

/-- A bank with every register 0. The spec gives no reset value (R59): DESIGN CHOICE, log 1. -/
def Bank.zero : Bank where
  ax0 := 0
  ax1 := 0
  ay0 := 0
  ay1 := 0
  ar := 0
  af := 0
  mx0 := 0
  mx1 := 0
  my0 := 0
  my1 := 0
  mf := 0
  mr0 := 0
  mr1 := 0
  mr2 := 0
  si := 0
  se := 0
  sb := 0
  sr0 := 0
  sr1 := 0

/-- The state right after reset: R59's values; a register R59 calls unspecified holds 0 (DESIGN CHOICE,
log 1); no memory word is written (log 3); the configuration is `Config.standard` (log 5). -/
def State.reset : State where
  cfg := Config.standard
  prim := Bank.zero
  sec := Bank.zero
  ireg := Vector.replicate 8 0
  mreg := Vector.replicate 8 0
  lreg := Vector.replicate 8 0
  px := 0
  pc := 0
  pcStack := []
  loopStack := []
  cntr := 0
  cntrValid := false
  cntrExpired := false
  cntrStack := []
  statusStack := []
  astat := 0
  mstat := 0
  pso := false
  cso := false
  sso := false
  lso := false
  imask := 0
  icntl := 0
  intsEn := true
  irqPending := 0
  fiLatch := false
  flagOut := false
  fl0 := false
  fl1 := false
  fl2 := false
  pcPopPending := false
  idle := false
  idleDiv := .d1
  pm := []
  dm := []
  pmDirty := []
  draws := 0
  events := []
  irqInputs := []

end Sys2Proof.Machine
end

