-- ==== Sys2Proof/Machine/Flags.lean ====
section
/-!
DEFINITION. ASTAT and MSTAT bit by bit (R36, R41), the flags each unit computes (R38), SSTAT (R43), and
the conditions and termination conditions (R160, R161).
-/

namespace Sys2Proof.Machine

/-! ## ASTAT (R36) -/

def azOf (f : BitVec 8) : Bool := f.getLsbD 0
def anOf (f : BitVec 8) : Bool := f.getLsbD 1
def avOf (f : BitVec 8) : Bool := f.getLsbD 2
def acOf (f : BitVec 8) : Bool := f.getLsbD 3
def asOf (f : BitVec 8) : Bool := f.getLsbD 4
def aqOf (f : BitVec 8) : Bool := f.getLsbD 5
def mvOf (f : BitVec 8) : Bool := f.getLsbD 6
def ssOf (f : BitVec 8) : Bool := f.getLsbD 7

/-! ## MSTAT (R41) -/

def secRegOf (m : BitVec 7) : Bool := m.getLsbD 0
def bitRevOf (m : BitVec 7) : Bool := m.getLsbD 1
def avLatchOf (m : BitVec 7) : Bool := m.getLsbD 2
def arSatOf (m : BitVec 7) : Bool := m.getLsbD 3
def mModeOf (m : BitVec 7) : Bool := m.getLsbD 4
def timerOf (m : BitVec 7) : Bool := m.getLsbD 5
def gModeOf (m : BitVec 7) : Bool := m.getLsbD 6

/-- ASTAT with AZ, AN, AV and AC replaced. -/
def withAluFlags (f : BitVec 8) (az an av ac : Bool) : BitVec 8 :=
  setBitTo (setBitTo (setBitTo (setBitTo f 0 az) 1 an) 2 av) 3 ac

/-- AV after an operation that computed the overflow `ov` (R39): sticky in latch mode. -/
def latchedAv (m : BitVec 7) (f : BitVec 8) (ov : Bool) : Bool :=
  if avLatchOf m then avOf f || ov else ov

/-- ASTAT after an ALU operation other than DIVS and DIVQ (R202): its result, overflow and carry, and AS
for ABS only. -/
def aluAstat (m : BitVec 7) (f : BitVec 8) (r : Word) (ov ac : Bool) (as : Option Bool) : BitVec 8 :=
  let g := withAluFlags f (r == 0) r.msb (latchedAv m f ov) ac
  match as with
  | none => g
  | some b => setBitTo g 4 b

/-- ASTAT with AQ replaced (R235, R236). -/
def withAq (f : BitVec 8) (q : Bool) : BitVec 8 := setBitTo f 5 q

/-- ASTAT with MV replaced (R254). -/
def withMv (f : BitVec 8) (mv : Bool) : BitVec 8 := setBitTo f 6 mv

/-- ASTAT with SS replaced (R290, R291). -/
def withSs (f : BitVec 8) (ss : Bool) : BitVec 8 := setBitTo f 7 ss

/-- SSTAT (R43): the empty bits computed from the stacks (R44), the overflow bits as stored (R45). -/
def sstat (s : State) : BitVec 8 :=
  BitVec.ofBool s.lso ++ BitVec.ofBool s.loopStack.isEmpty ++
  BitVec.ofBool s.sso ++ BitVec.ofBool s.statusStack.isEmpty ++
  BitVec.ofBool s.cso ++ BitVec.ofBool s.cntrStack.isEmpty ++
  BitVec.ofBool s.pso ++ BitVec.ofBool s.pcStack.isEmpty

/-! ## Conditions -/

/-- Whether a condition holds (R160). NOT CE holds while the counter is not expired: a counter of 1
expires when it is tested (R162). -/
def condHolds (c : Cond) (s : State) : Bool :=
  let f := s.astat
  match c with
  | .eq => azOf f
  | .ne => !azOf f
  | .gt => !((anOf f ^^ avOf f) || azOf f)
  | .le => (anOf f ^^ avOf f) || azOf f
  | .lt => anOf f ^^ avOf f
  | .ge => !(anOf f ^^ avOf f)
  | .av => avOf f
  | .notAv => !avOf f
  | .ac => acOf f
  | .notAc => !acOf f
  | .neg => asOf f
  | .pos => !asOf f
  | .mv => mvOf f
  | .notMv => !mvOf f
  | .notCe => s.cntr != 1
  | .always => true

/-- Whether a termination condition holds (R161). -/
def termHolds (t : Term) (s : State) : Bool :=
  let f := s.astat
  match t with
  | .ne => !azOf f
  | .eq => azOf f
  | .le => (anOf f ^^ avOf f) || azOf f
  | .gt => !((anOf f ^^ avOf f) || azOf f)
  | .ge => !(anOf f ^^ avOf f)
  | .lt => anOf f ^^ avOf f
  | .notAv => !avOf f
  | .av => avOf f
  | .notAc => !acOf f
  | .ac => acOf f
  | .pos => !asOf f
  | .neg => asOf f
  | .notMv => !mvOf f
  | .mv => mvOf f
  | .ce => s.cntr == 1
  | .forever => false

end Sys2Proof.Machine
end

