-- ==== Sys2Proof/Machine/Ops.lean ====
section
/-!
DEFINITION. The named operations every meaning is made of: register banks, free values, memory and I/O
accesses, the four stacks, the counter test, the sequencing of instructions and loops, and the entry
into an interrupt with the return from one beside it. An operation that can meet a fault of the model
answers in `Except Fault`; a fault leaves nothing of the instruction behind (R452).
-/

namespace Sys2Proof.Machine

/-! ## Outcomes -/

/-- An operation's answer as an outcome of the step: a fault carries no state (R452). -/
def toOutcome : Except Fault State → Host.Outcome State Fault Refusal
  | .ok s => .next s
  | .error f => .fault f

/-- What a fault leaves (R452, R454): the state as it was, but for the sticky overflow bit of the stack
that overflowed (log 22). -/
def recordFault (f : Fault) (s : State) : State :=
  match f with
  | .stackOverflow .pc => { s with pso := true }
  | .stackOverflow .loop => { s with lso := true }
  | .stackOverflow .counter => { s with cso := true }
  | .stackOverflow .status => { s with sso := true }
  | _ => s

/-! ## Register banks (R28) -/

/-- The bank MSTAT's SEC_REG selects. -/
def State.bank (s : State) : Bank := if secRegOf s.mstat then s.sec else s.prim

/-- Changes the selected bank. -/
def State.mapBank (f : Bank → Bank) (s : State) : State :=
  { s with
    prim := if secRegOf s.mstat then s.prim else f s.prim
    sec := if secRegOf s.mstat then f s.sec else s.sec }

/-! ## Free values and events (R10, R453) -/

/-- The next free value (R10, log 10). -/
def drawnValue (s : State) : BitVec 24 := Config.oracle s.draws

/-- Counts a drawn value. -/
def State.drawn (s : State) : State := { s with draws := s.draws + 1 }

/-- Appends an event to the history. -/
def State.emit (e : Event) (s : State) : State := { s with events := e :: s.events }

/-! ## Memory accesses (R82 to R87) -/

/-- What backs an address (R98): the first region that holds it. -/
def backing : List Region → Nat → Option Backing
  | [], _ => none
  | r :: rs, a => if r.base ≤ a ∧ a < r.base + r.size then some r.kind else backing rs a

/-- `MemRead(DM, a)` (R82). -/
def memReadDm (a : Addr) (s : State) : Except Fault (Word × State) :=
  match backing s.cfg.dmMap a.toNat with
  | none => .error (.unmappedAccess .dm a)
  | some .device =>
    let v : Word := (drawnValue s).setWidth 16
    .ok (v, s.drawn.emit (.devRead .dm a (v.setWidth 24)))
  | some .ram | some .rom =>
    match Memory.readDm s.dm a with
    | none => .error (.uninitRead .dm a)
    | some v => .ok (v, s)

/-- `MemWrite(DM, a, v)` (R83). -/
def memWriteDm (a : Addr) (v : Word) (s : State) : Except Fault State :=
  match backing s.cfg.dmMap a.toNat with
  | some .ram => .ok { s with dm := Memory.writeDm s.dm a v }
  | some .device => .ok (s.emit (.devWrite .dm a (v.setWidth 24)))
  | some .rom | none => .error (.unmappedAccess .dm a)

/-- `MemRead(PM, a)` (R84). -/
def memReadPm (a : Addr) (s : State) : Except Fault (PWord × State) :=
  match backing s.cfg.pmMap a.toNat with
  | none => .error (.unmappedAccess .pm a)
  | some .device => .ok (drawnValue s, s.drawn.emit (.devRead .pm a (drawnValue s)))
  | some .ram | some .rom =>
    match Memory.readPm s.pm a with
    | none => .error (.uninitRead .pm a)
    | some v => .ok (v, s)

/-- `MemWrite(PM, a, v)` (R85): the address joins `PM_DIRTY`. -/
def memWritePm (a : Addr) (v : PWord) (s : State) : Except Fault State :=
  match backing s.cfg.pmMap a.toNat with
  | some .ram => .ok { s with pm := Memory.writePm s.pm a v, pmDirty := addToSet s.pmDirty a.toNat }
  | some .device =>
    .ok ({ s with pmDirty := addToSet s.pmDirty a.toNat }.emit (.devWrite .pm a v))
  | some .rom | none => .error (.unmappedAccess .pm a)

/-- `MemRead(IO, a)` (R86): every I/O address is a device. -/
def ioReadWord (a : IoAddr) (s : State) : Word × State :=
  let v : Word := (drawnValue s).setWidth 16
  (v, s.drawn.emit (.devRead .io (a.setWidth 14) (v.setWidth 24)))

/-- `MemWrite(IO, a, v)` (R87). -/
def ioWriteWord (a : IoAddr) (v : Word) (s : State) : State :=
  s.emit (.devWrite .io (a.setWidth 14) (v.setWidth 24))

/-- The instruction fetch (R110, R112): refused from an address that a store wrote (R459 item 1). -/
def fetch (s : State) : Except Fault (PWord × State) :=
  if s.pmDirty.contains s.pc.toNat then .error (.fetchAfterPmWrite s.pc) else memReadPm s.pc s

/-! ## Stacks (R355) -/

/-- `PC_STACK_DEPTH` (R32). -/
def pcStackDepth : Nat := 16

/-- `LOOP_STACK_DEPTH` (R33). -/
def loopStackDepth : Nat := 4

/-- `push_pc` (R355). -/
def pushPc (a : Addr) (s : State) : Except Fault State :=
  if pcStackDepth ≤ s.pcStack.length then .error (.stackOverflow .pc)
  else .ok { s with pcStack := a :: s.pcStack }

/-- `pop_pc` (R355). -/
def popPc (s : State) : Except Fault (Addr × State) :=
  match s.pcStack with
  | [] => .error (.stackUnderflow .pc)
  | a :: rest => .ok (a, { s with pcStack := rest })

/-- `top_pc` (R355). -/
def topPc (s : State) : Except Fault Addr :=
  match s.pcStack with
  | [] => .error (.stackUnderflow .pc)
  | a :: _ => .ok a

/-- `pop_loop` (R355). -/
def popLoop (s : State) : Except Fault State :=
  match s.loopStack with
  | [] => .error (.stackUnderflow .loop)
  | _ :: rest => .ok { s with loopStack := rest }

/-- `push_sts` (R355): ASTAT, MSTAT and IMASK as they are. -/
def pushSts (s : State) : Except Fault State :=
  if s.cfg.statusStackDepth ≤ s.statusStack.length then .error (.stackOverflow .status)
  else .ok { s with statusStack := ⟨s.astat, s.mstat, s.imask⟩ :: s.statusStack }

/-- `pop_sts` (R355): all bits, AV included (R39). -/
def popSts (s : State) : Except Fault State :=
  match s.statusStack with
  | [] => .error (.stackUnderflow .status)
  | e :: rest => .ok { s with statusStack := rest, astat := e.astat, mstat := e.mstat, imask := e.imask }

/-- POP CNTR (R390). -/
def popCntr (s : State) : Except Fault State :=
  match s.cntrStack with
  | [] => .error (.stackUnderflow .counter)
  | c :: rest => .ok { s with cntrStack := rest, cntr := c, cntrValid := true }

/-- A write to CNTR (R318): saves a valid count on the counter stack first. -/
def writeCntr (v : Addr) (s : State) : Except Fault State :=
  if s.cntrValid then
    if s.cfg.cntrStackDepth ≤ s.cntrStack.length then .error (.stackOverflow .counter)
    else .ok { s with cntrStack := s.cntr :: s.cntrStack, cntr := v, cntrValid := true }
  else .ok { s with cntr := v, cntrValid := true }

/-- A write to OWRCNTR (R318): no push. -/
def overwriteCntr (v : Addr) (s : State) : State := { s with cntr := v, cntrValid := true }

/-! ## The counter test and the conditions (R162) -/

/-- What `test_CE` leaves in the counter when CNTR is not 0 (R162): one less, and on expiry the outer
count from the counter stack, or no valid count. -/
def ceTick (s : State) : State :=
  if s.cntr = 1 then
    match s.cntrStack with
    | c :: rest => { s with cntr := c, cntrStack := rest }
    | [] => { s with cntr := 0, cntrValid := false, cntrExpired := true }
  else { s with cntr := s.cntr - 1 }

/-- Evaluates a condition (R352, R162): NOT CE counts CNTR down whether or not it holds. -/
def evalCond (c : Cond) (s : State) : Except Fault (Bool × State) :=
  if c = .notCe then
    if s.cntr = 0 then .error .ceWithZeroCounter else .ok (condHolds c s, ceTick s)
  else .ok (condHolds c s, s)

/-- Conditional execution (R200): a false condition is a no-operation. -/
def ifCond (c : Cond) (f : State → Except Fault State) (s : State) : Except Fault State :=
  match evalCond c s with
  | .error e => .error e
  | .ok (true, t) => f t
  | .ok (false, t) => .ok t

/-! ## Sequencing (R372, R373) -/

/-- `pc` is the last instruction of the innermost loop (R372). -/
def atLoopEnd (s : State) : Bool :=
  match s.loopStack with
  | [] => false
  | e :: _ => e.addr == s.pc

/-- The innermost loop ends on CE. -/
def endsOnCe (s : State) : Bool :=
  match s.loopStack with
  | [] => false
  | e :: _ => e.term == .ce

/-- What an instruction is to the hazards of R373 and R396. -/
structure Guard where
  /-- it reads or writes the PC stack (R396) -/
  pcStack : Bool
  /-- it may not be the last instruction of any loop (R373 items 2 and 3) -/
  forbidden : Bool
  /-- it writes the counter or tests NOT CE, so it may not end a CE loop (R373 item 4) -/
  counter : Bool
deriving DecidableEq, Repr

/-- An instruction with no hazard of its own. -/
def Guard.plain : Guard := ⟨false, false, false⟩

/-- An instruction whose only hazard is its condition (R373 item 4). -/
def Guard.cond (c : Cond) : Guard := ⟨false, false, c == .notCe⟩

/-- The hazard checks (R459 item 4). An instruction at a loop's end uses the PC stack (R396). -/
def hazards (g : Guard) (s : State) : Except Fault Unit :=
  if s.pcPopPending && (g.pcStack || atLoopEnd s) then .error .pcPopHazard
  else if atLoopEnd s && (g.forbidden || (g.counter && endsOnCe s)) then .error .loopEnd
  else .ok ()

/-- What follows an instruction that is no taken transfer (R372): the next address, the loop's first
instruction again, or the loop left. `ce` says that CE was tested. -/
inductive Seq where
  | straight
  | again (ce : Bool)
  | leave (ce : Bool)
deriving DecidableEq, Repr

/-- The decision of `next_pc` (R372), made on the loop stack and ASTAT before the instruction. -/
def nextSeq (s : State) : Except Fault Seq :=
  match s.loopStack with
  | [] => .ok .straight
  | e :: rest =>
    if e.addr = s.pc then
      if e.term = .ce ∧ s.cntr = 0 then .error .ceWithZeroCounter
      else if termHolds e.term s then
        if (rest.head?.any fun o => o.addr == s.pc) then .error .loopEnd
        else .ok (.leave (e.term == .ce))
      else .ok (.again (e.term == .ce))
    else .ok .straight

/-- Carries out the decision of `next_pc` (R372). -/
def nextPc (q : Seq) (s : State) : Except Fault State :=
  match q with
  | .straight => .ok { s with pc := s.pc + 1 }
  | .again ce =>
    let t := if ce then ceTick s else s
    match topPc t with
    | .error e => .error e
    | .ok a => .ok { t with pc := a }
  | .leave ce =>
    let t := if ce then ceTick s else s
    match popLoop t with
    | .error e => .error e
    | .ok t1 =>
      match popPc t1 with
      | .error e => .error e
      | .ok (_, t2) => .ok { t2 with pc := t2.pc + 1 }

/-- An instruction that is no transfer: the hazard checks, the decision where to go, its own effect, and
the move of the pc (R310, R372, R459). -/
def runSeq (g : Guard) (eff : State → Except Fault State) (s : State) : Except Fault State :=
  match hazards g s with
  | .error e => .error e
  | .ok () =>
    match nextSeq s with
    | .error e => .error e
    | .ok q =>
      match eff s with
      | .error e => .error e
      | .ok t => nextPc q t

/-- `runSeq` as an outcome. -/
def runPlain (g : Guard) (eff : State → Except Fault State) (s : State) :
    Host.Outcome State Fault Refusal := toOutcome (runSeq g eff s)

/-- A transfer (R352): tests, and either takes the transfer, which may not end a loop (R373 item 1), or
goes on as `next_pc` says. -/
def runTransfer (g : Guard) (test : State → Except Fault (Bool × State))
    (take : State → Except Fault State) (s : State) : Except Fault State :=
  match hazards g s with
  | .error e => .error e
  | .ok () =>
    match test s with
    | .error e => .error e
    | .ok (true, t) => if atLoopEnd s then .error .loopEnd else take t
    | .ok (false, t) =>
      match nextSeq s with
      | .error e => .error e
      | .ok q => nextPc q t

/-- `runTransfer` as an outcome. -/
def runBranch (g : Guard) (test : State → Except Fault (Bool × State))
    (take : State → Except Fault State) (s : State) : Host.Outcome State Fault Refusal :=
  toOutcome (runTransfer g test take s)

/-- Tests the FI pin (R356, R52): a fresh draw, kept in FI_LATCH. -/
def testFlagIn (on : Bool) (s : State) : Except Fault (Bool × State) :=
  let fi := (drawnValue s).getLsbD 0
  .ok (fi == on, { s.drawn with fiLatch := fi })

/-! ## Interrupts (R461 to R466) -/

/-- `entry_mask` of a source (R461). -/
def entryMaskValue (imask icntl : BitVec 16) : EntryMask → BitVec 16
  | .const v => v
  | .keep v => imask &&& v
  | .ifIcntl b y n => if icntl.getLsbD b.val then entryMaskValue imask icntl y else entryMaskValue imask icntl n
  | .ifImask b y n => if imask.getLsbD b.val then entryMaskValue imask icntl y else entryMaskValue imask icntl n

/-- Taking an interrupt (R464): the pc goes on the PC stack, ASTAT, MSTAT and IMASK on the status stack,
IMASK becomes the source's entry mask, the pc its vector, and IDLE ends (R462). -/
def takeInterrupt (q : IrqSource) (s : State) : Except Fault State :=
  match pushPc s.pc s with
  | .error e => .error e
  | .ok s1 =>
    match pushSts s1 with
    | .error e => .error e
    | .ok s2 =>
      .ok { s2 with
        idle := false
        imask := keepLow s.cfg.imaskBits (entryMaskValue s.imask s.icntl q.entryMask)
        irqPending := if q.clearsOnEntry then setBitTo s.irqPending q.latch.val false else s.irqPending
        pc := q.vector }

/-- Returning from an interrupt (R361): the pc from the PC stack, ASTAT, MSTAT and IMASK from the status
stack. -/
def returnFromInterrupt (s : State) : Except Fault State :=
  match popPc s with
  | .error e => .error e
  | .ok (a, t) => popSts { t with pc := a }

/-- Whether a source may interrupt now (R462's `eligible`). -/
def eligible (s : State) (q : IrqSource) : Bool :=
  s.irqPending.getLsbD q.latch.val && s.imask.getLsbD q.maskBit.val && (s.intsEn || !q.maskableByIntsEn)

/-- The source with the smallest priority (R465), the first of equals (log 8). -/
def firstByPriority : List IrqSource → Option IrqSource
  | [] => none
  | q :: qs =>
    match firstByPriority qs with
    | none => some q
    | some r => if q.priority ≤ r.priority then some q else some r

/-- The interrupt to take at this boundary, if any (R462). -/
def interruptDue (s : State) : Option IrqSource := firstByPriority (s.cfg.irqTable.filter (eligible s))

/-- The latches the environment may set (R471): those of the table's sources, the timer's only while
MSTAT's TIMER is 1. -/
def latchable (m : BitVec 7) : List IrqSource → BitVec 16
  | [] => 0
  | q :: qs =>
    if !q.isTimer || timerOf m then BitVec.twoPow 16 q.latch.val ||| latchable m qs else latchable m qs

/-- `environment_step` (R462): the next interrupt requests set their latches (log 9). -/
def environmentStep (s : State) : State :=
  match s.irqInputs with
  | [] => s
  | r :: rest =>
    { s with irqPending := s.irqPending ||| (r &&& latchable s.mstat s.cfg.irqTable), irqInputs := rest }

/-- The clear bits of an IFC write (R463). -/
def ifcClear (v : BitVec 16) : List IrqSource → BitVec 16 → BitVec 16
  | [], p => p
  | q :: qs, p => ifcClear v qs (if q.clearBit.any fun b => v.getLsbD b.val then setBitTo p q.latch.val false else p)

/-- The force bits of an IFC write (R463). -/
def ifcForce (v : BitVec 16) : List IrqSource → BitVec 16 → BitVec 16
  | [], p => p
  | q :: qs, p => ifcForce v qs (if q.forceBit.any fun b => v.getLsbD b.val then setBitTo p q.latch.val true else p)

/-- A write to IFC (R463): the event, and the latches cleared and then forced (log 8). -/
def writeIfc (v : Word) (s : State) : State :=
  let u := keepLow s.cfg.ifcBits v
  { s.emit (.ifcWrite u) with
    irqPending := ifcForce u s.cfg.irqTable (ifcClear u s.cfg.irqTable s.irqPending) }

/-! ## The end of a step (R462) -/

/-- The delayed pop of `reg = TOPPCSTACK` (R396), the last action of the following instruction. -/
def delayedPop (s : State) : Except Fault State :=
  match popPc s with
  | .error e => .error e
  | .ok (_, t) => .ok { t with pcPopPending := false }

/-- Ends the step after the instruction (R462): `p` is PCPOP_PENDING as it was before it. -/
def finishStep (p : Bool) (o : Host.Outcome State Fault Refusal) : Host.Outcome State Fault Refusal :=
  match o with
  | .next t => if p then toOutcome (delayedPop t) else .next t
  | .fault f => .fault f
  | .refused r => .refused r

end Sys2Proof.Machine
end

