-- ==== Sys2Proof/Machine/Operands.lean ====
section
/-!
DEFINITION. Every operand form: the xops and yops of the three units (R163, R204), the constants (R166),
the data registers (R164) and the registers of the moves (R165) with their widths and extensions (R57,
R311), and the two data address generators (R90 to R95).
-/

namespace Sys2Proof.Machine

/-! ## Operands of the units -/

/-- The value of an ALU xop (R204): MR2 is sign-extended (R24). -/
def aluXVal (x : AluX) (s : State) : Word :=
  match x with
  | .ax0 => s.bank.ax0
  | .ax1 => s.bank.ax1
  | .ar => s.bank.ar
  | .mr0 => s.bank.mr0
  | .mr1 => s.bank.mr1
  | .mr2 => s.bank.mr2.signExtend 16
  | .sr0 => s.bank.sr0
  | .sr1 => s.bank.sr1

/-- The value of an ALU yop (R204). -/
def aluYVal (y : AluY) (s : State) : Word :=
  match y with
  | .ay0 => s.bank.ay0
  | .ay1 => s.bank.ay1
  | .af => s.bank.af
  | .zero => 0

/-- The value of a MAC xop (R250). -/
def macXVal (x : MacX) (s : State) : Word :=
  match x with
  | .mx0 => s.bank.mx0
  | .mx1 => s.bank.mx1
  | .ar => s.bank.ar
  | .mr0 => s.bank.mr0
  | .mr1 => s.bank.mr1
  | .mr2 => s.bank.mr2.signExtend 16
  | .sr0 => s.bank.sr0
  | .sr1 => s.bank.sr1

/-- The value of a MAC yop (R250). -/
def macYVal (y : MacY) (s : State) : Word :=
  match y with
  | .my0 => s.bank.my0
  | .my1 => s.bank.my1
  | .mf => s.bank.mf
  | .zero => 0

/-- The value of a shifter xop (R280). -/
def shXVal (x : ShX) (s : State) : Word :=
  match x with
  | .si => s.bank.si
  | .ar => s.bank.ar
  | .mr0 => s.bank.mr0
  | .mr1 => s.bank.mr1
  | .mr2 => s.bank.mr2.signExtend 16
  | .sr0 => s.bank.sr0
  | .sr1 => s.bank.sr1

/-- A constant of the type 9 constant form (R166): one bit, or all but one. -/
def konstVal (k : Konst) : Word :=
  if k.inv then ~~~(BitVec.twoPow 16 k.n.val) else BitVec.twoPow 16 k.n.val

/-- MR as one 40-bit value (R22). -/
def mrVal (s : State) : Acc := s.bank.mr2 ++ s.bank.mr1 ++ s.bank.mr0

/-! ## Data registers (R26, R311) -/

/-- A data register as a source: SE and MR2 are sign-extended. -/
def readDreg (d : Dreg) (s : State) : Word :=
  match d with
  | .ax0 => s.bank.ax0
  | .ax1 => s.bank.ax1
  | .mx0 => s.bank.mx0
  | .mx1 => s.bank.mx1
  | .ay0 => s.bank.ay0
  | .ay1 => s.bank.ay1
  | .my0 => s.bank.my0
  | .my1 => s.bank.my1
  | .si => s.bank.si
  | .se => s.bank.se.signExtend 16
  | .ar => s.bank.ar
  | .mr0 => s.bank.mr0
  | .mr1 => s.bank.mr1
  | .mr2 => s.bank.mr2.signExtend 16
  | .sr0 => s.bank.sr0
  | .sr1 => s.bank.sr1

/-- A bank with a data register loaded: SE and MR2 keep the low bits, a load of MR1 also sets MR2 to its
sign (R23). -/
def bankWithDreg (d : Dreg) (v : Word) (b : Bank) : Bank :=
  match d with
  | .ax0 => { b with ax0 := v }
  | .ax1 => { b with ax1 := v }
  | .mx0 => { b with mx0 := v }
  | .mx1 => { b with mx1 := v }
  | .ay0 => { b with ay0 := v }
  | .ay1 => { b with ay1 := v }
  | .my0 => { b with my0 := v }
  | .my1 => { b with my1 := v }
  | .si => { b with si := v }
  | .se => { b with se := v.setWidth 8 }
  | .ar => { b with ar := v }
  | .mr0 => { b with mr0 := v }
  | .mr1 => { b with mr1 := v, mr2 := if v.msb then 0xFF else 0x00 }
  | .mr2 => { b with mr2 := v.setWidth 8 }
  | .sr0 => { b with sr0 := v }
  | .sr1 => { b with sr1 := v }

/-- A data register as a destination. -/
def writeDreg (d : Dreg) (v : Word) (s : State) : State := s.mapBank (bankWithDreg d v)

/-! ## Registers of the moves (R311) -/

/-- CNTR may be read (R318): it holds a valid count, or (log 12) its reset value, since nothing has written it. -/
def cntrReadable (s : State) : Bool := s.cntrValid || !s.cntrExpired

/-- `read_reg` (R311): the 16-bit value of a register, sign-extended for M, SB, SE and MR2, zero-filled for
the unsigned registers. A serial port register answers with a free value and an event (R472); a CNTR whose
count has expired is not read (R318). -/
def readReg (r : Reg) (s : State) : Except Fault (Word × State) :=
  match r with
  | .dreg d => .ok (readDreg d s, s)
  | .i n => .ok ((s.ireg.get n).setWidth 16, s)
  | .m n => .ok ((s.mreg.get n).signExtend 16, s)
  | .l n => .ok ((s.lreg.get n).setWidth 16, s)
  | .astat => .ok (s.astat.setWidth 16, s)
  | .mstat => .ok (s.mstat.setWidth 16, s)
  | .imask => .ok (s.imask, s)
  | .icntl => .ok (s.icntl, s)
  | .cntr => if cntrReadable s then .ok (s.cntr.setWidth 16, s) else .error .uninitCntr
  | .sb => .ok (s.bank.sb.signExtend 16, s)
  | .px => .ok (s.px.setWidth 16, s)
  | .port p =>
    let v : Word := (drawnValue s).setWidth 16
    .ok (v, s.drawn.emit (.portRead p v))

/-- The source of a move: a register, or SSTAT computed now (R311). -/
def readSrc (r : SrcReg) (s : State) : Except Fault (Word × State) :=
  match r with
  | .reg r => readReg r s
  | .sstat => .ok ((sstat s).setWidth 16, s)

/-- `write_reg` (R311, R314): the low bits of the value; CNTR by R318. -/
def writeReg (r : Reg) (v : Word) (s : State) : Except Fault State :=
  match r with
  | .dreg d => .ok (writeDreg d v s)
  | .i n => .ok { s with ireg := s.ireg.set n.val (v.setWidth 14) }
  | .m n => .ok { s with mreg := s.mreg.set n.val (v.setWidth 14) }
  | .l n => .ok { s with lreg := s.lreg.set n.val (v.setWidth 14) }
  | .astat => .ok { s with astat := v.setWidth 8 }
  | .mstat => .ok { s with mstat := v.setWidth 7 }
  | .imask => .ok { s with imask := keepLow s.cfg.imaskBits v }
  | .icntl => .ok { s with icntl := keepLow s.cfg.icntlBits v }
  | .cntr => writeCntr (v.setWidth 14) s
  | .sb => .ok (s.mapBank fun b => { b with sb := v.setWidth 5 })
  | .px => .ok { s with px := v.setWidth 8 }
  | .port p => .ok (s.emit (.portWrite p v))

/-- The destination of a move (R311): OWRCNTR by R318, IFC by R463. -/
def writeDst (d : DstReg) (v : Word) (s : State) : Except Fault State :=
  match d with
  | .reg r => writeReg r v s
  | .owrcntr => .ok (overwriteCntr (v.setWidth 14) s)
  | .ifc => .ok (writeIfc v s)

/-- A destination that is the counter (R373 item 4). -/
def writesCounter (d : DstReg) : Bool :=
  match d with
  | .reg .cntr | .owrcntr => true
  | _ => false

/-! ## Data address generators -/

/-- The number of a DAG's register among the eight (R29, R91): DAG 2 holds 4 to 7. -/
def dagIndex (g : Dag) (i : Fin 4) : Fin 8 :=
  match g with
  | .one => ⟨i.val, by omega⟩
  | .two => ⟨i.val + 4, by omega⟩

/-- The address an indirect access puts out (R90, R95): I before the modify, bit-reversed from DAG 1 when
BIT_REV is set. -/
def dagAddr (g : Dag) (i : Fin 4) (s : State) : Addr :=
  let a := s.ireg.get (dagIndex g i)
  if g = .one ∧ bitRevOf s.mstat = true then rev14 a else a

/-- The modulus logic (R93), for a length above 0; none outside the cases R93 covers. -/
def modulus (i m l : Addr) : Option Addr :=
  let n := leastPow l.toNat 14 0
  let base := i.toNat / 2 ^ n * 2 ^ n
  let off := i.toNat - base
  if l.toNat ≤ off ∨ l.toNat < m.toInt.natAbs then none
  else some (BitVec.ofInt 14 ((base : Int) + ((off : Int) + m.toInt) % (l.toNat : Int)))

/-- The value I takes in a post-modify (R92). -/
def modifiedI (g : Dag) (i m : Fin 4) (s : State) : Except Fault Addr :=
  let iv := s.ireg.get (dagIndex g i)
  let mv := s.mreg.get (dagIndex g m)
  let lv := s.lreg.get (dagIndex g i)
  if lv = 0 then .ok (iv + mv)
  else
    match modulus iv mv lv with
    | some a => .ok a
    | none => .error .circular

/-- Stores a modified I (R92). -/
def setI (g : Dag) (i : Fin 4) (a : Addr) (s : State) : State :=
  { s with ireg := s.ireg.set (dagIndex g i).val a }

/-! ## Indirect accesses (R321, R322, R325, R327) -/

/-- An indirect data-memory read: the word, the state after the access, and I's new value. -/
def dmFetch (g : Dag) (i m : Fin 4) (s : State) : Except Fault (Word × State × Addr) :=
  match modifiedI g i m s with
  | .error e => .error e
  | .ok a =>
    match memReadDm (dagAddr g i s) s with
    | .error e => .error e
    | .ok (v, t) => .ok (v, t, a)

/-- An indirect program-memory read through DAG 2 (R96). -/
def pmFetch (i m : Fin 4) (s : State) : Except Fault (PWord × State × Addr) :=
  match modifiedI .two i m s with
  | .error e => .error e
  | .ok a =>
    match memReadPm (dagAddr .two i s) s with
    | .error e => .error e
    | .ok (w, t) => .ok (w, t, a)

/-- An indirect data-memory write with the post-modify (R325). -/
def dmStore (g : Dag) (v : Word) (i m : Fin 4) (s : State) : Except Fault State :=
  match modifiedI g i m s with
  | .error e => .error e
  | .ok a =>
    match memWriteDm (dagAddr g i s) v s with
    | .error e => .error e
    | .ok t => .ok (setI g i a t)

/-- An indirect program-memory write with the post-modify: the word and PX below it (R97). -/
def pmStore (v : Word) (i m : Fin 4) (s : State) : Except Fault State :=
  match modifiedI .two i m s with
  | .error e => .error e
  | .ok a =>
    match memWritePm (dagAddr .two i s) (v ++ s.px) s with
    | .error e => .error e
    | .ok t => .ok (setI .two i a t)

/-- The register side of a program-memory read (R96): bits 23-8 to the data register, bits 7-0 to PX. -/
def loadFromPm (d : Dreg) (w : PWord) (s : State) : State :=
  { writeDreg d (w.extractLsb' 8 16) s with px := w.extractLsb' 0 8 }

end Sys2Proof.Machine
end

