-- ==== Sys2Proof/Machine/Alu.lean ====
section
/-!
DEFINITION. The ALU instructions (40_alu.md): the adder (R201), the function table (R204), the commit
with AR saturation (R202, R203), one meaning per row of type 9, the divide primitives (R235, R236) and
NONE = <ALU> (R240).
-/

namespace Sys2Proof.Machine

/-- What a meaning answers. -/
abbrev Out := Host.Outcome State Fault Refusal

/-- What an ALU function yields (R204): the result, its overflow and carry, and AS for ABS. -/
structure AluOut where
  r : Word
  ov : Bool
  ac : Bool
  as : Option Bool
deriving DecidableEq, Repr

/-- The adder (R201): carry out of bit 15, two's complement overflow. -/
def aluAdd (a b : Word) (cin : Bool) : AluOut :=
  let t := a.toNat + b.toNat + cin.toNat
  let r := BitVec.ofNat 16 t
  ⟨r, a.msb == b.msb && r.msb != a.msb, decide (65536 ≤ t), none⟩

/-- A result with overflow and carry 0: the logical functions (R211 to R218). -/
def aluLogic (r : Word) : AluOut := ⟨r, false, false, none⟩

/-- ABS (R226): 8000H stays, with overflow; AS is the sign of the operand. -/
def aluAbs (x : Word) : AluOut := ⟨if x.msb then -x else x, x == 0x8000, false, some x.msb⟩

/-- The ALU functions (R204) of the operands and the carry. -/
def alu (f : AluFn) (x y : Word) (c : Bool) : AluOut :=
  match f with
  | .passY => aluLogic y
  | .incY => aluAdd y 1 false
  | .addC => aluAdd x y c
  | .add => aluAdd x y false
  | .notY => aluLogic (~~~y)
  | .negY => aluAdd 0 (~~~y) true
  | .subC => aluAdd x (~~~y) c
  | .sub => aluAdd x (~~~y) true
  | .decY => aluAdd y 0xFFFF false
  | .rsub => aluAdd y (~~~x) true
  | .rsubC => aluAdd y (~~~x) c
  | .notX => aluLogic (~~~x)
  | .and => aluLogic (x &&& y)
  | .or => aluLogic (x ||| y)
  | .xor => aluLogic (x ^^^ y)
  | .abs => aluAbs x

/-- What AR receives (R203): in saturation mode the largest value of the overflow's sign. -/
def saturated (m : BitVec 7) (o : AluOut) : Word :=
  if arSatOf m && o.ov then (if o.ac then 0x8000 else 0x7FFF) else o.r

/-- The flags of an ALU result (R202). -/
def setAluFlags (o : AluOut) (s : State) : State :=
  { s with astat := aluAstat s.mstat s.astat o.r o.ov o.ac o.as }

/-- The register a result goes to (R202): AR, saturated (R203), or AF, never saturated. -/
def writeAluDest (z : Dest) (o : AluOut) (s : State) : State :=
  match z with
  | .result => s.mapBank fun b => { b with ar := saturated s.mstat o }
  | .feedback => s.mapBank fun b => { b with af := o.r }

/-- The commit of an ALU result (R202). -/
def commitAlu (z : Dest) (o : AluOut) (s : State) : State := writeAluDest z o (setAluFlags o s)

/-- A conditional ALU instruction of type 9 (R200): the function of the operands' values. -/
def runAlu (f : AluFn) (z : Dest) (x y : State → Word) (c : Cond) (s : State) : Out :=
  runPlain (.cond c)
    (ifCond c fun t => .ok (commitAlu z (alu f (x s) (y s) (acOf s.astat)) t)) s

/-- An operand no function reads. -/
def noOperand : State → Word := fun _ => 0


/-- `xop + yop`, R205 (register form). -/
def execAddXY (z : Dest) (x : AluX) (y : AluY) (c : Cond) (s : State) : Out :=
  runAlu .add z (aluXVal x) (aluYVal y) c s

/-- `xop + yop`, R205 with a constant for yop (R166). -/
def execAddXK (z : Dest) (x : AluX) (k : Konst) (c : Cond) (s : State) : Out :=
  runAlu .add z (aluXVal x) (fun _ => konstVal k) c s

/-- `xop + yop + C`, R206 (register form). -/
def execAddcXY (z : Dest) (x : AluX) (y : AluY) (c : Cond) (s : State) : Out :=
  runAlu .addC z (aluXVal x) (aluYVal y) c s

/-- `xop + yop + C`, R206 with a constant for yop (R166). -/
def execAddcXK (z : Dest) (x : AluX) (k : Konst) (c : Cond) (s : State) : Out :=
  runAlu .addC z (aluXVal x) (fun _ => konstVal k) c s

/-- `xop - yop`, R207 (register form). -/
def execSubXY (z : Dest) (x : AluX) (y : AluY) (c : Cond) (s : State) : Out :=
  runAlu .sub z (aluXVal x) (aluYVal y) c s

/-- `xop - yop`, R207 with a constant for yop (R166). -/
def execSubXK (z : Dest) (x : AluX) (k : Konst) (c : Cond) (s : State) : Out :=
  runAlu .sub z (aluXVal x) (fun _ => konstVal k) c s

/-- `xop - yop + C - 1`, R208 (register form). -/
def execSubbXY (z : Dest) (x : AluX) (y : AluY) (c : Cond) (s : State) : Out :=
  runAlu .subC z (aluXVal x) (aluYVal y) c s

/-- `xop - yop + C - 1`, R208 with a constant for yop (R166). -/
def execSubbXK (z : Dest) (x : AluX) (k : Konst) (c : Cond) (s : State) : Out :=
  runAlu .subC z (aluXVal x) (fun _ => konstVal k) c s

/-- `yop - xop`, R209 (register form). -/
def execRsubXY (z : Dest) (x : AluX) (y : AluY) (c : Cond) (s : State) : Out :=
  runAlu .rsub z (aluXVal x) (aluYVal y) c s

/-- `yop - xop`, R209 with a constant for yop (R166). -/
def execRsubXK (z : Dest) (x : AluX) (k : Konst) (c : Cond) (s : State) : Out :=
  runAlu .rsub z (aluXVal x) (fun _ => konstVal k) c s

/-- `yop - xop + C - 1`, R210 (register form). -/
def execRsubbXY (z : Dest) (x : AluX) (y : AluY) (c : Cond) (s : State) : Out :=
  runAlu .rsubC z (aluXVal x) (aluYVal y) c s

/-- `yop - xop + C - 1`, R210 with a constant for yop (R166). -/
def execRsubbXK (z : Dest) (x : AluX) (k : Konst) (c : Cond) (s : State) : Out :=
  runAlu .rsubC z (aluXVal x) (fun _ => konstVal k) c s

/-- `xop AND yop`, R211 (register form). -/
def execAndXY (z : Dest) (x : AluX) (y : AluY) (c : Cond) (s : State) : Out :=
  runAlu .and z (aluXVal x) (aluYVal y) c s

/-- `xop AND yop`, R211 with a constant for yop (R166). -/
def execAndXK (z : Dest) (x : AluX) (k : Konst) (c : Cond) (s : State) : Out :=
  runAlu .and z (aluXVal x) (fun _ => konstVal k) c s

/-- `xop OR yop`, R212 (register form). -/
def execOrXY (z : Dest) (x : AluX) (y : AluY) (c : Cond) (s : State) : Out :=
  runAlu .or z (aluXVal x) (aluYVal y) c s

/-- `xop OR yop`, R212 with a constant for yop (R166). -/
def execOrXK (z : Dest) (x : AluX) (k : Konst) (c : Cond) (s : State) : Out :=
  runAlu .or z (aluXVal x) (fun _ => konstVal k) c s

/-- `xop XOR yop`, R213 (register form). -/
def execXorXY (z : Dest) (x : AluX) (y : AluY) (c : Cond) (s : State) : Out :=
  runAlu .xor z (aluXVal x) (aluYVal y) c s

/-- `xop XOR yop`, R213 with a constant for yop (R166). -/
def execXorXK (z : Dest) (x : AluX) (k : Konst) (c : Cond) (s : State) : Out :=
  runAlu .xor z (aluXVal x) (fun _ => konstVal k) c s

/-- TSTBIT (R214): AND with a 1 in the selected bit. -/
def execTstBit (z : Dest) (n : Fin 16) (x : AluX) (c : Cond) (s : State) : Out :=
  runAlu .and z (aluXVal x) (fun _ => konstVal ⟨n, false⟩) c s

/-- SETBIT (R215): OR with a 1 in the selected bit. -/
def execSetBit (z : Dest) (n : Fin 16) (x : AluX) (c : Cond) (s : State) : Out :=
  runAlu .or z (aluXVal x) (fun _ => konstVal ⟨n, false⟩) c s

/-- CLRBIT (R216): AND with a 0 in the selected bit. -/
def execClrBit (z : Dest) (n : Fin 16) (x : AluX) (c : Cond) (s : State) : Out :=
  runAlu .and z (aluXVal x) (fun _ => konstVal ⟨n, true⟩) c s

/-- TGLBIT (R217): XOR with a 1 in the selected bit. -/
def execTglBit (z : Dest) (n : Fin 16) (x : AluX) (c : Cond) (s : State) : Out :=
  runAlu .xor z (aluXVal x) (fun _ => konstVal ⟨n, false⟩) c s

/-- PASS yop (R218). -/
def execPassY (z : Dest) (y : AluY) (c : Cond) (s : State) : Out :=
  runAlu .passY z noOperand (aluYVal y) c s

/-- PASS 0 (R218). -/
def execPassZero (z : Dest) (c : Cond) (s : State) : Out :=
  runAlu .passY z noOperand (aluYVal .zero) c s

/-- PASS xop (R219): xop + yop with yop = 0. -/
def execPassX (z : Dest) (x : AluX) (c : Cond) (s : State) : Out :=
  runAlu .add z (aluXVal x) (aluYVal .zero) c s

/-- PASS 1 (R220): yop + 1 with yop = 0. -/
def execPassOne (z : Dest) (c : Cond) (s : State) : Out :=
  runAlu .incY z noOperand (aluYVal .zero) c s

/-- PASS -1 (R220): yop - 1 with yop = 0. -/
def execPassMinusOne (z : Dest) (c : Cond) (s : State) : Out :=
  runAlu .decY z noOperand (aluYVal .zero) c s

/-- AR after PASS constant with free flags (R221): the result, but in saturation mode, where AV and AC are unknown, freely
the result or one of the two saturation values (log 11). -/
def passKonstAr (m : BitVec 7) (r : Word) (d : BitVec 24) : Word :=
  if arSatOf m then
    (if d.getLsbD 4 then (if d.getLsbD 5 then 0x8000 else 0x7FFF) else r)
  else r

/-- The constants -1, 0 and 1, of which PASS defines the flags (R220, R221). -/
def passDefines (r : Word) : Bool := r == 0xFFFF || r == 0 || r == 1

/-- PASS constant with any other constant (R221): the result is exact; AZ, AN, AV and AC are free. -/
def passOther (z : Dest) (r : Word) (s : State) : State :=
  let d := drawnValue s
  let t := { s.drawn with
    astat := withAluFlags s.astat (d.getLsbD 0) (d.getLsbD 1) (d.getLsbD 2) (d.getLsbD 3) }
  match z with
  | .result => t.mapBank fun b => { b with ar := passKonstAr s.mstat r d }
  | .feedback => t.mapBank fun b => { b with af := r }

/-- PASS constant (R221) by the ALU function `f` of the constant `y`: where the result is -1, 0 or 1 as every
ALU instruction of type 9 (R200, R202, R204, log 11). -/
def passKonst (f : AluFn) (z : Dest) (y : Word) (s : State) : State :=
  let o := alu f 0 y (acOf s.astat)
  if passDefines o.r then commitAlu z o s else passOther z o.r s

/-- A conditional PASS constant (R221). -/
def runPassKonst (f : AluFn) (z : Dest) (k : Konst) (c : Cond) (s : State) : Out :=
  runPlain (.cond c) (ifCond c fun t => .ok (passKonst f z (konstVal k) t)) s

/-- PASS constant (R221): AMF 10000. -/
def execPassK (z : Dest) (k : Konst) (c : Cond) (s : State) : Out :=
  runPassKonst .passY z k c s

/-- PASS constant + 1 (R221): AMF 10001. -/
def execPassKInc (z : Dest) (k : Konst) (c : Cond) (s : State) : Out :=
  runPassKonst .incY z k c s

/-- PASS constant - 1 (R221): AMF 11000. -/
def execPassKDec (z : Dest) (k : Konst) (c : Cond) (s : State) : Out :=
  runPassKonst .decY z k c s

/-- `- xop` (R222): yop - xop with yop = 0. -/
def execNegX (z : Dest) (x : AluX) (c : Cond) (s : State) : Out :=
  runAlu .rsub z (aluXVal x) (aluYVal .zero) c s

/-- `- yop` (R223). -/
def execNegY (z : Dest) (y : AluY) (c : Cond) (s : State) : Out :=
  runAlu .negY z noOperand (aluYVal y) c s

/-- NOT xop (R224). -/
def execNotX (z : Dest) (x : AluX) (c : Cond) (s : State) : Out :=
  runAlu .notX z (aluXVal x) noOperand c s

/-- NOT yop (R225). -/
def execNotY (z : Dest) (y : AluY) (c : Cond) (s : State) : Out :=
  runAlu .notY z noOperand (aluYVal y) c s

/-- ABS xop (R226). -/
def execAbsX (z : Dest) (x : AluX) (c : Cond) (s : State) : Out :=
  runAlu .abs z (aluXVal x) noOperand c s

/-- `yop + 1` (R227). -/
def execIncY (z : Dest) (y : AluY) (c : Cond) (s : State) : Out :=
  runAlu .incY z noOperand (aluYVal y) c s

/-- `yop - 1` (R228). -/
def execDecY (z : Dest) (y : AluY) (c : Cond) (s : State) : Out :=
  runAlu .decY z noOperand (aluYVal y) c s

/-- The end of both divide steps (R235, R236): AF takes the remainder `t` shifted left with AY0's sign bit
below it, AY0 is shifted left with the quotient bit `b` below it, AQ becomes `q`. -/
def divideStep (t : Word) (b q : Bool) (s : State) : State :=
  let lo := s.bank.ay0
  { s.mapBank fun k => { k with
      af := (t <<< 1) ||| (BitVec.ofBool lo.msb).setWidth 16
      ay0 := (lo <<< 1) ||| (BitVec.ofBool b).setWidth 16 } with
    astat := withAq s.astat q }

/-- The DIVS step (R235): the sign of the quotient. -/
def divsStep (y x : Word) (s : State) : State :=
  let q := x.msb ^^ y.msb
  divideStep y q q s

/-- The DIVQ step (R236): add or subtract the divisor as AQ says. -/
def divqStep (x : Word) (s : State) : State :=
  let t := if aqOf s.astat then s.bank.af + x else s.bank.af - x
  let q := t.msb ^^ x.msb
  divideStep t (!q) q s

/-- DIVS (R235). -/
def execDivs (y : AluY) (x : AluX) (s : State) : Out :=
  runPlain .plain (fun t => .ok (divsStep (aluYVal y t) (aluXVal x t) t)) s

/-- DIVQ (R236). -/
def execDivq (x : AluX) (s : State) : Out :=
  runPlain .plain (fun t => .ok (divqStep (aluXVal x t) t)) s

/-- `NONE = <ALU>` (R240): the flags alone. -/
def execNoneAlu (f : AluFn) (x : AluX) (y : AluY) (s : State) : Out :=
  runPlain .plain
    (fun t => .ok (setAluFlags (alu f (aluXVal x t) (aluYVal y t) (acOf t.astat)) t)) s

end Sys2Proof.Machine
end

