-- ==== Sys2Proof/Machine/Flow.lean ====
section
/-!
DEFINITION. The program flow instructions (44_program_flow.md): JUMP, CALL, the flag-in forms, MODIFY FLAG
OUT, RTS, RTI, DO UNTIL and IDLE. A taken transfer may not end a loop (R373 item 1); CALL, RTS, RTI and
DO UNTIL use the PC stack (R396).
-/

namespace Sys2Proof.Machine

/-- The hazards of a transfer that leaves the PC stack alone. -/
def jumpGuard (c : Cond) : Guard := .cond c

/-- The hazards of a transfer that uses the PC stack (R396). -/
def stackGuard (c : Cond) : Guard := ⟨true, false, c == .notCe⟩

/-- A taken JUMP (R350, R351). -/
def takeJump (a : Addr) (s : State) : Except Fault State := .ok { s with pc := a }

/-- A taken CALL (R353, R354): the return address is pc + 1. -/
def takeCall (a : Addr) (s : State) : Except Fault State :=
  match pushPc (s.pc + 1) s with
  | .error e => .error e
  | .ok t => .ok { t with pc := a }

/-- A taken RTS (R360). -/
def takeReturn (s : State) : Except Fault State :=
  match popPc s with
  | .error e => .error e
  | .ok (a, t) => .ok { t with pc := a }

/-- The new level of a pin (R358); a pin that keeps its level has none. -/
def pinLevel (op : PinOp) (old : Bool) : Option Bool :=
  match op with
  | .keep => none
  | .toggle => some !old
  | .reset => some false
  | .set => some true

/-- Drives FL2 (R358) and tells the world of it (log 18). -/
def driveFl2 (op : PinOp) (s : State) : State :=
  match pinLevel op s.fl2 with
  | none => s
  | some b => { s.emit (.pinWrite .fl2 b) with fl2 := b }

/-- Drives FL1 (R358). -/
def driveFl1 (op : PinOp) (s : State) : State :=
  match pinLevel op s.fl1 with
  | none => s
  | some b => { s.emit (.pinWrite .fl1 b) with fl1 := b }

/-- Drives FL0 (R358). -/
def driveFl0 (op : PinOp) (s : State) : State :=
  match pinLevel op s.fl0 with
  | none => s
  | some b => { s.emit (.pinWrite .fl0 b) with fl0 := b }

/-- Drives FLAG_OUT (R358). -/
def driveFlagOut (op : PinOp) (s : State) : State :=
  match pinLevel op s.flagOut with
  | none => s
  | some b => { s.emit (.pinWrite .flagOut b) with flagOut := b }

/-- The pins in the order of R358: FL2, FL1, FL0, FLAG_OUT. -/
def drivePins (f2 f1 f0 fo : PinOp) (s : State) : State :=
  driveFlagOut fo (driveFl0 f0 (driveFl1 f1 (driveFl2 f2 s)))

/-- DO UNTIL's own effect (R370): both pushes, or, with a stack full, the overflow bits alone. -/
def startLoop (a : Addr) (t : Term) (s : State) : State :=
  let lf := decide (loopStackDepth ≤ s.loopStack.length)
  let pf := decide (pcStackDepth ≤ s.pcStack.length)
  if lf || pf then { s with lso := s.lso || lf, pso := s.pso || pf }
  else { s with loopStack := ⟨a, t⟩ :: s.loopStack, pcStack := (s.pc + 1) :: s.pcStack }

/-- Entering the idle state with a divisor (R380, R381). -/
def enterIdle (d : IdleDiv) (s : State) : State := { s with idle := true, idleDiv := d }

/-- The divisor that IDLE (n) names (R381). -/
def slowDivisor (n : SlowDiv) : IdleDiv :=
  match n with
  | .d16 => .d16
  | .d32 => .d32
  | .d64 => .d64
  | .d128 => .d128


/-- `[IF cond] JUMP <addr>` (R350). -/
def execJump (a : Addr) (c : Cond) (s : State) : Out :=
  runBranch (jumpGuard c) (evalCond c) (takeJump a) s

/-- `[IF cond] JUMP (I4..I7)` (R351). -/
def execJumpInd (i : Fin 4) (c : Cond) (s : State) : Out :=
  runBranch (jumpGuard c) (evalCond c) (takeJump (s.ireg.get (dagIndex .two i))) s

/-- `[IF cond] CALL <addr>` (R353). -/
def execCall (a : Addr) (c : Cond) (s : State) : Out :=
  runBranch (stackGuard c) (evalCond c) (takeCall a) s

/-- `[IF cond] CALL (I4..I7)` (R354). -/
def execCallInd (i : Fin 4) (c : Cond) (s : State) : Out :=
  runBranch (stackGuard c) (evalCond c) (takeCall (s.ireg.get (dagIndex .two i))) s

/-- `IF [NOT] FLAG_IN JUMP <addr>` (R356). -/
def execJumpFlagIn (on : Bool) (a : Addr) (s : State) : Out :=
  runBranch .plain (testFlagIn on) (takeJump a) s

/-- `IF [NOT] FLAG_IN CALL <addr>` (R356). -/
def execCallFlagIn (on : Bool) (a : Addr) (s : State) : Out :=
  runBranch ⟨true, false, false⟩ (testFlagIn on) (takeCall a) s

/-- SET, RESET, TOGGLE of the flag pins (R358). -/
def execFlagOut (f2 f1 f0 fo : PinOp) (c : Cond) (s : State) : Out :=
  runPlain (.cond c) (ifCond c fun t => .ok (drivePins f2 f1 f0 fo t)) s

/-- `[IF cond] RTS` (R360). -/
def execRts (c : Cond) (s : State) : Out :=
  runBranch (stackGuard c) (evalCond c) takeReturn s

/-- `[IF cond] RTI` (R361). -/
def execRti (c : Cond) (s : State) : Out :=
  runBranch (stackGuard c) (evalCond c) returnFromInterrupt s

/-- `DO <addr> [UNTIL term]` (R370). -/
def execDoUntil (a : Addr) (t : Term) (s : State) : Out :=
  runPlain ⟨true, true, false⟩ (fun s => .ok (startLoop a t s)) s

/-- IDLE (R380). -/
def execIdle (s : State) : Out :=
  runPlain ⟨false, true, false⟩ (fun t => .ok (enterIdle .d1 t)) s

/-- IDLE (n) (R381). -/
def execIdleN (n : SlowDiv) (s : State) : Out :=
  runPlain ⟨false, true, false⟩ (fun t => .ok (enterIdle (slowDivisor n) t)) s

end Sys2Proof.Machine
end

