-- ==== Sys2Proof/Machine/Mac.lean ====
section
/-!
DEFINITION. The MAC instructions (41_mac.md): the function on mathematical integers (R252), rounding
(R255), the commit (R254), one meaning per row of type 9, and SAT MR (R270).
-/

namespace Sys2Proof.Machine

/-- An operand as the format reads it (R252): two's complement or unsigned. -/
def macOperand (signed : Bool) (v : Word) : Int := if signed then v.toInt else (v.toNat : Int)

/-- The product (R252), with the left shift of the fractional placement (R251: M_MODE = 0). -/
def macProduct (fmt : MacFmt) (mMode : Bool) (x y : Word) : Int :=
  let p := match fmt with
    | .rnd | .ss => macOperand true x * macOperand true y
    | .su => macOperand true x * macOperand false y
    | .us => macOperand false x * macOperand true y
    | .uu => macOperand false x * macOperand false y
  if mMode then p else 2 * p

/-- Rounding (R255): add 1 at bit 15; a tie rounds to even unless the part's rounding is biased. -/
def macRound (biased : Bool) (res : Acc) : Acc :=
  let r := res + 0x8000
  if res.extractLsb' 0 16 == 0x8000 && !biased then setBitTo r 16 false else r

/-- The MAC function (R252): the 40-bit result. -/
def macResult (op : MacOp) (fmt : MacFmt) (mMode biased : Bool) (x y : Word) (mr : Acc) : Acc :=
  let p := macProduct fmt mMode x y
  let t := match op with
    | .mul => p
    | .acc => mr.toInt + p
    | .sub => mr.toInt - p
  let res := BitVec.ofInt 40 t
  if fmt = .rnd then macRound biased res else res

/-- MV (R252): the upper nine bits of the result are not all equal. -/
def macOverflow (res : Acc) : Bool :=
  !(res.extractLsb' 31 9 == 0 || res.extractLsb' 31 9 == BitVec.allOnes 9)

/-- Whether this part rounds ties up (R255): only with `EXT_ALU_MAC`. -/
def biasedRounding (s : State) : Bool := s.cfg.biasedRnd && s.cfg.extAluMac

/-- A bank with the whole of MR replaced (R22). -/
def bankWithMr (v : Acc) (b : Bank) : Bank :=
  { b with mr2 := v.extractLsb' 32 8, mr1 := v.extractLsb' 16 16, mr0 := v.extractLsb' 0 16 }

/-- The commit of a MAC result (R254): MV, and MR whole or MF from bits 31-16. -/
def commitMac (z : Dest) (res : Acc) (mv : Bool) (s : State) : State :=
  let t := { s with astat := withMv s.astat mv }
  match z with
  | .result => t.mapBank (bankWithMr res)
  | .feedback => t.mapBank fun b => { b with mf := res.extractLsb' 16 16 }

/-- The result of a MAC clause on the state's MR, mode and rounding (R252). -/
def macOf (op : MacOp) (fmt : MacFmt) (x y : Word) (s : State) : Acc :=
  macResult op fmt (mModeOf s.mstat) (biasedRounding s) x y (mrVal s)

/-- The format in which a product with a yop is made (R260): a multiply by yop = 0 is the clear whatever its
format, so (RND) rounds nothing there (log 30). -/
def macFormat (op : MacOp) (fmt : MacFmt) (y : MacY) : MacFmt :=
  if op = .mul ∧ y = .zero then .ss else fmt

/-- A conditional MAC instruction of type 9 (R250). -/
def runMac (op : MacOp) (fmt : MacFmt) (z : Dest) (x y : State → Word) (c : Cond) (s : State) : Out :=
  runPlain (.cond c)
    (ifCond c fun t =>
      let res := macOf op fmt (x s) (y s) s
      .ok (commitMac z res (macOverflow res) t)) s


/-- `xop * yop (SS)`, R256. -/
def execMulSS (z : Dest) (x : MacX) (y : MacY) (c : Cond) (s : State) : Out :=
  runMac .mul .ss z (macXVal x) (macYVal y) c s

/-- `xop * yop (SU)`, R256. -/
def execMulSU (z : Dest) (x : MacX) (y : MacY) (c : Cond) (s : State) : Out :=
  runMac .mul .su z (macXVal x) (macYVal y) c s

/-- `xop * yop (US)`, R256. -/
def execMulUS (z : Dest) (x : MacX) (y : MacY) (c : Cond) (s : State) : Out :=
  runMac .mul .us z (macXVal x) (macYVal y) c s

/-- `xop * yop (UU)`, R256. -/
def execMulUU (z : Dest) (x : MacX) (y : MacY) (c : Cond) (s : State) : Out :=
  runMac .mul .uu z (macXVal x) (macYVal y) c s

/-- `xop * yop (RND)`, R256; with yop = 0 the clear (R260). -/
def execMulRND (z : Dest) (x : MacX) (y : MacY) (c : Cond) (s : State) : Out :=
  runMac .mul (macFormat .mul .rnd y) z (macXVal x) (macYVal y) c s

/-- `MR + xop * yop (SS)`, R257. -/
def execMacSS (z : Dest) (x : MacX) (y : MacY) (c : Cond) (s : State) : Out :=
  runMac .acc .ss z (macXVal x) (macYVal y) c s

/-- `MR + xop * yop (SU)`, R257. -/
def execMacSU (z : Dest) (x : MacX) (y : MacY) (c : Cond) (s : State) : Out :=
  runMac .acc .su z (macXVal x) (macYVal y) c s

/-- `MR + xop * yop (US)`, R257. -/
def execMacUS (z : Dest) (x : MacX) (y : MacY) (c : Cond) (s : State) : Out :=
  runMac .acc .us z (macXVal x) (macYVal y) c s

/-- `MR + xop * yop (UU)`, R257. -/
def execMacUU (z : Dest) (x : MacX) (y : MacY) (c : Cond) (s : State) : Out :=
  runMac .acc .uu z (macXVal x) (macYVal y) c s

/-- `MR + xop * yop (RND)`, R257. -/
def execMacRND (z : Dest) (x : MacX) (y : MacY) (c : Cond) (s : State) : Out :=
  runMac .acc .rnd z (macXVal x) (macYVal y) c s

/-- `MR - xop * yop (SS)`, R258. -/
def execMsubSS (z : Dest) (x : MacX) (y : MacY) (c : Cond) (s : State) : Out :=
  runMac .sub .ss z (macXVal x) (macYVal y) c s

/-- `MR - xop * yop (SU)`, R258. -/
def execMsubSU (z : Dest) (x : MacX) (y : MacY) (c : Cond) (s : State) : Out :=
  runMac .sub .su z (macXVal x) (macYVal y) c s

/-- `MR - xop * yop (US)`, R258. -/
def execMsubUS (z : Dest) (x : MacX) (y : MacY) (c : Cond) (s : State) : Out :=
  runMac .sub .us z (macXVal x) (macYVal y) c s

/-- `MR - xop * yop (UU)`, R258. -/
def execMsubUU (z : Dest) (x : MacX) (y : MacY) (c : Cond) (s : State) : Out :=
  runMac .sub .uu z (macXVal x) (macYVal y) c s

/-- `MR - xop * yop (RND)`, R258. -/
def execMsubRND (z : Dest) (x : MacX) (y : MacY) (c : Cond) (s : State) : Out :=
  runMac .sub .rnd z (macXVal x) (macYVal y) c s

/-- `xop * xop (SS)`, R259. -/
def execSqSS (z : Dest) (x : MacX) (c : Cond) (s : State) : Out :=
  runMac .mul .ss z (macXVal x) (macXVal x) c s

/-- `xop * xop (UU)`, R259. -/
def execSqUU (z : Dest) (x : MacX) (c : Cond) (s : State) : Out :=
  runMac .mul .uu z (macXVal x) (macXVal x) c s

/-- `xop * xop (RND)`, R259. -/
def execSqRND (z : Dest) (x : MacX) (c : Cond) (s : State) : Out :=
  runMac .mul .rnd z (macXVal x) (macXVal x) c s

/-- `MR + xop * xop (SS)`, R259. -/
def execMacSqSS (z : Dest) (x : MacX) (c : Cond) (s : State) : Out :=
  runMac .acc .ss z (macXVal x) (macXVal x) c s

/-- `MR + xop * xop (UU)`, R259. -/
def execMacSqUU (z : Dest) (x : MacX) (c : Cond) (s : State) : Out :=
  runMac .acc .uu z (macXVal x) (macXVal x) c s

/-- `MR + xop * xop (RND)`, R259. -/
def execMacSqRND (z : Dest) (x : MacX) (c : Cond) (s : State) : Out :=
  runMac .acc .rnd z (macXVal x) (macXVal x) c s

/-- `MR - xop * xop (SS)`, R259. -/
def execMsubSqSS (z : Dest) (x : MacX) (c : Cond) (s : State) : Out :=
  runMac .sub .ss z (macXVal x) (macXVal x) c s

/-- `MR - xop * xop (UU)`, R259. -/
def execMsubSqUU (z : Dest) (x : MacX) (c : Cond) (s : State) : Out :=
  runMac .sub .uu z (macXVal x) (macXVal x) c s

/-- `MR - xop * xop (RND)`, R259. -/
def execMsubSqRND (z : Dest) (x : MacX) (c : Cond) (s : State) : Out :=
  runMac .sub .rnd z (macXVal x) (macXVal x) c s

/-- `MR|MF = 0` (R260): MV is cleared. -/
def execClearMR (z : Dest) (c : Cond) (s : State) : Out :=
  runPlain (.cond c) (ifCond c fun t => .ok (commitMac z 0 false t)) s

/-- `MR|MF = MR` (R261): MV is recomputed. -/
def execTransferMR (z : Dest) (c : Cond) (s : State) : Out :=
  runPlain (.cond c)
    (ifCond c fun t => .ok (commitMac z (mrVal s) (macOverflow (mrVal s)) t)) s

/-- `MR|MF = MR (RND)` (R261): rounded (R255). -/
def execTransferMRRnd (z : Dest) (c : Cond) (s : State) : Out :=
  runPlain (.cond c)
    (ifCond c fun t =>
      let res := macRound (biasedRounding s) (mrVal s)
      .ok (commitMac z res (macOverflow res) t)) s

/-- MR after saturation (R270): the 32-bit extreme of MR2's sign. -/
def saturatedMr (mr2 : BitVec 8) : Acc :=
  if mr2.msb then 0xFF80000000 else 0x007FFFFFFF

/-- SAT MR (R270): only when MV is set; no flag changes. -/
def satMr (s : State) : State :=
  if mvOf s.astat then s.mapBank fun b => bankWithMr (saturatedMr b.mr2) b else s

/-- IF MV SAT MR (R270). -/
def execSatMR (s : State) : Out :=
  runPlain .plain (fun t => .ok (satMr t)) s

end Sys2Proof.Machine
end

