-- ==== Sys2Proof/Machine/Misc.lean ====
section
/-!
DEFINITION. The misc instructions (45_misc.md): stack control, the TOPPCSTACK forms, mode control, MODIFY,
the no-operations, and the interrupt enable.
-/

namespace Sys2Proof.Machine

/-- Spp of stack control (R390). -/
def controlStatus (sp : StsOp) (s : State) : Except Fault State :=
  match sp with
  | .keep => .ok s
  | .push => pushSts s
  | .pop => popSts s

/-- The other clauses of stack control (R390): POP CNTR, POP PC, POP LOOP. -/
def controlPops (pp lp cp : Bool) (s : State) : Except Fault State :=
  match (if cp then popCntr s else .ok s) with
  | .error e => .error e
  | .ok s1 =>
    match (if pp then popPc s1 else .ok (s1.pc, s1)) with
    | .error e => .error e
    | .ok (_, s2) => if lp then popLoop s2 else .ok s2

/-- The clauses of a stack control word (R390), each on its own stack. -/
def controlStacks (pp lp cp : Bool) (sp : StsOp) (s : State) : Except Fault State :=
  match controlStatus sp s with
  | .error e => .error e
  | .ok t => controlPops pp lp cp t

/-- The hazards of a stack control word (R373 item 3, R396; POP CNTR writes CNTR, log 14). -/
def controlGuard (pp lp cp : Bool) : Guard := ⟨pp, pp || lp, cp⟩

/-- `reg = TOPPCSTACK` (R396): the top is read, its pop is pending. -/
def readTopPc (d : Reg) (s : State) : Except Fault State :=
  match topPc s with
  | .error e => .error e
  | .ok a =>
    match writeReg d (a.setWidth 16) s with
    | .error e => .error e
    | .ok t => .ok { t with pcPopPending := true }

/-- `TOPPCSTACK = reg` (R397). -/
def writeTopPc (r : Reg) (s : State) : Except Fault State :=
  match readReg r s with
  | .error e => .error e
  | .ok (v, t) => pushPc (v.setWidth 14) t

/-- One field of mode control on bit `n` of MSTAT (R400). -/
def applyMode (op : ModeOp) (n : Nat) (m : BitVec 7) : BitVec 7 :=
  match op with
  | .keep => m
  | .disable => setBitTo m n false
  | .enable => setBitTo m n true

/-- The seven fields of mode control (R400) on MSTAT (R41). -/
def applyModes (ti mm as ol br sr gm : ModeOp) (m : BitVec 7) : BitVec 7 :=
  applyMode gm 6 (applyMode ti 5 (applyMode mm 4 (applyMode as 3
    (applyMode ol 2 (applyMode br 1 (applyMode sr 0 m))))))

/-- MODIFY (R405): the post-modify alone. -/
def modifyI (g : Dag) (i m : Fin 4) (s : State) : Except Fault State :=
  match modifiedI g i m s with
  | .error e => .error e
  | .ok a => .ok (setI g i a s)


/-- Stack control (R390). -/
def execStackControl (pp lp cp : Bool) (sp : StsOp) (s : State) : Out :=
  runPlain (controlGuard pp lp cp) (controlStacks pp lp cp sp) s

/-- `reg = TOPPCSTACK` (R396). -/
def execRegFromTop (d : Reg) (s : State) : Out :=
  runPlain ⟨true, true, false⟩ (readTopPc d) s

/-- `TOPPCSTACK = reg` (R397). -/
def execTopFromReg (r : Reg) (s : State) : Out :=
  runPlain ⟨true, true, false⟩ (writeTopPc r) s

/-- Mode control (R400). -/
def execModeControl (ti mm as ol br sr gm : ModeOp) (s : State) : Out :=
  runPlain .plain
    (fun t => .ok { t with mstat := applyModes ti mm as ol br sr gm t.mstat }) s

/-- MODIFY (R405). -/
def execModify (g : Dag) (i m : Fin 4) (s : State) : Out :=
  runPlain .plain (modifyI g i m) s

/-- NOP (R408). -/
def execNop (s : State) : Out :=
  runPlain .plain (fun t => .ok t) s

/-- Type 9 with AMF = 00000 (R409): COND is not evaluated. -/
def execNopType9 (s : State) : Out :=
  runPlain .plain (fun t => .ok t) s

/-- ENA INTS (R410). -/
def execEnaInts (s : State) : Out :=
  runPlain .plain (fun t => .ok { t with intsEn := true }) s

/-- DIS INTS (R411). -/
def execDisInts (s : State) : Out :=
  runPlain .plain (fun t => .ok { t with intsEn := false }) s

end Sys2Proof.Machine
end

