-- ==== Sys2Proof/Machine/Move.lean ====
section
/-!
DEFINITION. The move instructions (43_move.md): one read, one write, the post-modify of the indirect
forms (R310). A move into the counter may not end a CE loop (R373 item 4).
-/

namespace Sys2Proof.Machine

/-- The hazards of a move into `d` (R373 item 4). -/
def moveGuard (d : DstReg) : Guard := ⟨false, false, writesCounter d⟩

/-- `reg = reg` (R313). -/
def moveReg (d : DstReg) (r : SrcReg) (s : State) : Except Fault State :=
  match readSrc r s with
  | .error e => .error e
  | .ok (v, t) => writeDst d v t

/-- `reg = DM(<addr>)` (R320). -/
def loadDirect (d : DstReg) (a : Addr) (s : State) : Except Fault State :=
  match memReadDm a s with
  | .error e => .error e
  | .ok (v, t) => writeDst d v t

/-- `DM(<addr>) = reg` (R324): the register is read first (R459). -/
def storeDirect (a : Addr) (r : SrcReg) (s : State) : Except Fault State :=
  match readSrc r s with
  | .error e => .error e
  | .ok (v, t) => memWriteDm a v t

/-- `dreg = DM(I, M)` (R321). -/
def loadDm (g : Dag) (d : Dreg) (i m : Fin 4) (s : State) : Except Fault State :=
  match dmFetch g i m s with
  | .error e => .error e
  | .ok (v, t, a) => .ok (setI g i a (writeDreg d v t))

/-- `dreg = PM(I, M)` (R322). -/
def loadPm (d : Dreg) (i m : Fin 4) (s : State) : Except Fault State :=
  match pmFetch i m s with
  | .error e => .error e
  | .ok (w, t, a) => .ok (setI .two i a (loadFromPm d w t))


/-- `reg = reg` (R313). -/
def execRegMove (d : DstReg) (r : SrcReg) (s : State) : Out :=
  runPlain (moveGuard d) (moveReg d r) s

/-- `dreg = <data>` (R315). -/
def execLoadDreg (d : Dreg) (v : Word) (s : State) : Out :=
  runPlain .plain (fun t => .ok (writeDreg d v t)) s

/-- `reg = <data>` (R316): the 14-bit constant is sign-extended. -/
def execLoadReg (d : DstReg) (v : BitVec 14) (s : State) : Out :=
  runPlain (moveGuard d) (writeDst d (v.signExtend 16)) s

/-- `reg = DM(<addr>)` (R320). -/
def execDmReadDirect (d : DstReg) (a : Addr) (s : State) : Out :=
  runPlain (moveGuard d) (loadDirect d a) s

/-- `DM(<addr>) = reg` (R324). -/
def execDmWriteDirect (a : Addr) (r : SrcReg) (s : State) : Out :=
  runPlain .plain (storeDirect a r) s

/-- `dreg = DM(I, M)` (R321). -/
def execDmRead (g : Dag) (d : Dreg) (i m : Fin 4) (s : State) : Out :=
  runPlain .plain (loadDm g d i m) s

/-- `DM(I, M) = dreg` (R325). -/
def execDmWrite (g : Dag) (r : Dreg) (i m : Fin 4) (s : State) : Out :=
  runPlain .plain (fun t => dmStore g (readDreg r t) i m t) s

/-- `DM(I, M) = <data>` (R326). -/
def execDmWriteImm (g : Dag) (v : Word) (i m : Fin 4) (s : State) : Out :=
  runPlain .plain (dmStore g v i m) s

/-- `dreg = PM(I, M)` (R322). -/
def execPmRead (d : Dreg) (i m : Fin 4) (s : State) : Out :=
  runPlain .plain (loadPm d i m) s

/-- `PM(I, M) = dreg` (R327). -/
def execPmWrite (r : Dreg) (i m : Fin 4) (s : State) : Out :=
  runPlain .plain (fun t => pmStore (readDreg r t) i m t) s

/-- `dreg = IO(<addr>)` (R330). -/
def execIoRead (d : Dreg) (a : IoAddr) (s : State) : Out :=
  runPlain .plain (fun t => .ok (writeDreg d (ioReadWord a t).1 (ioReadWord a t).2)) s

/-- `IO(<addr>) = dreg` (R331). -/
def execIoWrite (a : IoAddr) (r : Dreg) (s : State) : Out :=
  runPlain .plain (fun t => .ok (ioWriteWord a (readDreg r t) t)) s

end Sys2Proof.Machine
end

