-- ==== Sys2Proof/Machine/Shifter.lean ====
section
/-!
DEFINITION. The shifter instructions (42_shifter.md): the shift array (R281), the exponent detector
(R283), the commit (R282), one meaning per row of types 16 and 15.
-/

namespace Sys2Proof.Machine

/-- The shift array (R281): the input, extended to the left by `xb`, times a power of two, rounded down
to an integer, its low 32 bits. `hi` is the reference HI. -/
def shift32 (x : Word) (c : Int) (hi xb : Bool) : BitVec 32 :=
  let w : Int := (x.toNat : Int) - (if xb then 65536 else 0)
  let e : Int := c + (if hi then 16 else 0)
  BitVec.ofInt 32 (if 0 ≤ e then w * 2 ^ e.toNat else w / 2 ^ (-e).toNat)

/-- The exponent detector (R283): minus the number of redundant sign bits. -/
def expHi (x : Word) : Int := 1 - (leadingRun x.msb x 16 : Int)

/-- SR as one value (R25). -/
def srVal (s : State) : BitVec 32 := s.bank.sr1 ++ s.bank.sr0

/-- A bank with SR replaced (R25). -/
def bankWithSr (v : BitVec 32) (b : Bank) : Bank :=
  { b with sr1 := v.extractLsb' 16 16, sr0 := v.extractLsb' 0 16 }

/-- The commit of a shift (R282), with the SR OR option. -/
def commitShift (orSr : Bool) (out : BitVec 32) (s : State) : State :=
  s.mapBank fun b => bankWithSr (if orSr then (b.sr1 ++ b.sr0) ||| out else out) b

/-- The output of a LSHIFT by `c` (R285, R300). -/
def lshiftOut (hi : Bool) (x : Word) (c : Int) : BitVec 32 := shift32 x c hi false

/-- The output of an ASHIFT by `c` (R286, R301). -/
def ashiftOut (hi : Bool) (x : Word) (c : Int) : BitVec 32 := shift32 x c hi x.msb

/-- The output of a NORM (R287): the shift is minus SE, and HI fills with AC. -/
def normOut (hi : Bool) (x : Word) (se : BitVec 8) (ac : Bool) : BitVec 32 :=
  shift32 x (-se.toInt) hi (hi && ac)

/-- SE replaced. -/
def writeSe (v : Int) (s : State) : State := s.mapBank fun b => { b with se := BitVec.ofInt 8 v }

/-- EXP (HI) of `x` (R290): SE and SS. -/
def doExpHi (x : Word) (s : State) : State :=
  { writeSe (expHi x) s with astat := withSs s.astat x.msb }

/-- EXP (HIX) of `x` (R291): with AV set, SE = 1 and SS the inverted sign. -/
def doExpHix (x : Word) (s : State) : State :=
  if avOf s.astat then { writeSe 1 s with astat := withSs s.astat (!x.msb) } else doExpHi x s

/-- SE after EXP (LO) (R292): the leading bits equal to SS are added when the upper half was all sign bits. -/
def expLoSe (x : Word) (se : BitVec 8) (ss : Bool) : BitVec 8 :=
  if se.toInt = -15 then BitVec.ofInt 8 (-(15 + (leadingRun ss x 16 : Int))) else se

/-- EXP (LO) of `x` (R292). -/
def doExpLo (x : Word) (s : State) : State :=
  s.mapBank fun b => { b with se := expLoSe x b.se (ssOf s.astat) }

/-- SB after EXPADJ (R295): the larger exponent. -/
def expAdjSb (x : Word) (sb : BitVec 5) : BitVec 5 :=
  if sb.toInt < expHi x then BitVec.ofInt 5 (expHi x) else sb

/-- EXPADJ of `x` (R295). -/
def doExpAdj (x : Word) (s : State) : State := s.mapBank fun b => { b with sb := expAdjSb x b.sb }

/-- A conditional shifter instruction of type 16 (R280). -/
def runShift (eff : State → State) (c : Cond) (s : State) : Out :=
  runPlain (.cond c) (ifCond c fun t => .ok (eff t)) s


/-- LSHIFT (HI), R285. -/
def execLshiftHi (x : ShX) (c : Cond) (s : State) : Out :=
  runShift (fun t => commitShift false (lshiftOut true (shXVal x t) t.bank.se.toInt) t) c s

/-- LSHIFT (HI, OR), R285. -/
def execLshiftHiOr (x : ShX) (c : Cond) (s : State) : Out :=
  runShift (fun t => commitShift true (lshiftOut true (shXVal x t) t.bank.se.toInt) t) c s

/-- LSHIFT (LO), R285. -/
def execLshiftLo (x : ShX) (c : Cond) (s : State) : Out :=
  runShift (fun t => commitShift false (lshiftOut false (shXVal x t) t.bank.se.toInt) t) c s

/-- LSHIFT (LO, OR), R285. -/
def execLshiftLoOr (x : ShX) (c : Cond) (s : State) : Out :=
  runShift (fun t => commitShift true (lshiftOut false (shXVal x t) t.bank.se.toInt) t) c s

/-- ASHIFT (HI), R286. -/
def execAshiftHi (x : ShX) (c : Cond) (s : State) : Out :=
  runShift (fun t => commitShift false (ashiftOut true (shXVal x t) t.bank.se.toInt) t) c s

/-- ASHIFT (HI, OR), R286. -/
def execAshiftHiOr (x : ShX) (c : Cond) (s : State) : Out :=
  runShift (fun t => commitShift true (ashiftOut true (shXVal x t) t.bank.se.toInt) t) c s

/-- ASHIFT (LO), R286. -/
def execAshiftLo (x : ShX) (c : Cond) (s : State) : Out :=
  runShift (fun t => commitShift false (ashiftOut false (shXVal x t) t.bank.se.toInt) t) c s

/-- ASHIFT (LO, OR), R286. -/
def execAshiftLoOr (x : ShX) (c : Cond) (s : State) : Out :=
  runShift (fun t => commitShift true (ashiftOut false (shXVal x t) t.bank.se.toInt) t) c s

/-- NORM (HI), R287. -/
def execNormHi (x : ShX) (c : Cond) (s : State) : Out :=
  runShift (fun t => commitShift false (normOut true (shXVal x t) t.bank.se (acOf t.astat)) t) c s

/-- NORM (HI, OR), R287. -/
def execNormHiOr (x : ShX) (c : Cond) (s : State) : Out :=
  runShift (fun t => commitShift true (normOut true (shXVal x t) t.bank.se (acOf t.astat)) t) c s

/-- NORM (LO), R287. -/
def execNormLo (x : ShX) (c : Cond) (s : State) : Out :=
  runShift (fun t => commitShift false (normOut false (shXVal x t) t.bank.se (acOf t.astat)) t) c s

/-- NORM (LO, OR), R287. -/
def execNormLoOr (x : ShX) (c : Cond) (s : State) : Out :=
  runShift (fun t => commitShift true (normOut false (shXVal x t) t.bank.se (acOf t.astat)) t) c s

/-- EXP (HI), R290. -/
def execExpHi (x : ShX) (c : Cond) (s : State) : Out :=
  runShift (fun t => doExpHi (shXVal x t) t) c s

/-- EXP (HIX), R291. -/
def execExpHix (x : ShX) (c : Cond) (s : State) : Out :=
  runShift (fun t => doExpHix (shXVal x t) t) c s

/-- EXP (LO), R292. -/
def execExpLo (x : ShX) (c : Cond) (s : State) : Out :=
  runShift (fun t => doExpLo (shXVal x t) t) c s

/-- EXPADJ, R295. -/
def execExpAdj (x : ShX) (c : Cond) (s : State) : Out :=
  runShift (fun t => doExpAdj (shXVal x t) t) c s

/-- LSHIFT BY <exp> (HI), R300. -/
def execLshiftImmHi (x : ShX) (e : BitVec 8) (s : State) : Out :=
  runPlain .plain (fun t => .ok (commitShift false (lshiftOut true (shXVal x t) e.toInt) t)) s

/-- LSHIFT BY <exp> (HI, OR), R300. -/
def execLshiftImmHiOr (x : ShX) (e : BitVec 8) (s : State) : Out :=
  runPlain .plain (fun t => .ok (commitShift true (lshiftOut true (shXVal x t) e.toInt) t)) s

/-- LSHIFT BY <exp> (LO), R300. -/
def execLshiftImmLo (x : ShX) (e : BitVec 8) (s : State) : Out :=
  runPlain .plain (fun t => .ok (commitShift false (lshiftOut false (shXVal x t) e.toInt) t)) s

/-- LSHIFT BY <exp> (LO, OR), R300. -/
def execLshiftImmLoOr (x : ShX) (e : BitVec 8) (s : State) : Out :=
  runPlain .plain (fun t => .ok (commitShift true (lshiftOut false (shXVal x t) e.toInt) t)) s

/-- ASHIFT BY <exp> (HI), R301. -/
def execAshiftImmHi (x : ShX) (e : BitVec 8) (s : State) : Out :=
  runPlain .plain (fun t => .ok (commitShift false (ashiftOut true (shXVal x t) e.toInt) t)) s

/-- ASHIFT BY <exp> (HI, OR), R301. -/
def execAshiftImmHiOr (x : ShX) (e : BitVec 8) (s : State) : Out :=
  runPlain .plain (fun t => .ok (commitShift true (ashiftOut true (shXVal x t) e.toInt) t)) s

/-- ASHIFT BY <exp> (LO), R301. -/
def execAshiftImmLo (x : ShX) (e : BitVec 8) (s : State) : Out :=
  runPlain .plain (fun t => .ok (commitShift false (ashiftOut false (shXVal x t) e.toInt) t)) s

/-- ASHIFT BY <exp> (LO, OR), R301. -/
def execAshiftImmLoOr (x : ShX) (e : BitVec 8) (s : State) : Out :=
  runPlain .plain (fun t => .ok (commitShift true (ashiftOut false (shXVal x t) e.toInt) t)) s

end Sys2Proof.Machine
end

