-- ==== Sys2Proof/Machine/Multi.lean ====
section
/-!
DEFINITION. The multifunction instructions (46_multifunction.md): a computation beside one or two moves,
every clause reading the state before the instruction (R420). Two writers of one register are the fault
`indeterminate` (R422, log 28).
-/

namespace Sys2Proof.Machine

/-- A computation clause (R421): its operands, carry and MR are those of `pre`, its results go into
`post`; a multiply by yop = 0 is the clear (R260). -/
def compute (z : Dest) (k : Calc) (pre post : State) : State :=
  match k with
  | .alu f x y => commitAlu z (alu f (aluXVal x pre) (aluYVal y pre) (acOf pre.astat)) post
  | .mac op fmt x y =>
    let res := macOf op (macFormat op fmt y) (macXVal x pre) (macYVal y pre) pre
    commitMac z res (macOverflow res) post

/-- A shifter clause (R421): its input is the xop's value `x` before the instruction. -/
def shiftClause (f : ShFn) (x : Word) (s : State) : State :=
  match f with
  | .lshiftHi => commitShift false (lshiftOut true x s.bank.se.toInt) s
  | .lshiftHiOr => commitShift true (lshiftOut true x s.bank.se.toInt) s
  | .lshiftLo => commitShift false (lshiftOut false x s.bank.se.toInt) s
  | .lshiftLoOr => commitShift true (lshiftOut false x s.bank.se.toInt) s
  | .ashiftHi => commitShift false (ashiftOut true x s.bank.se.toInt) s
  | .ashiftHiOr => commitShift true (ashiftOut true x s.bank.se.toInt) s
  | .ashiftLo => commitShift false (ashiftOut false x s.bank.se.toInt) s
  | .ashiftLoOr => commitShift true (ashiftOut false x s.bank.se.toInt) s
  | .normHi => commitShift false (normOut true x s.bank.se (acOf s.astat)) s
  | .normHiOr => commitShift true (normOut true x s.bank.se (acOf s.astat)) s
  | .normLo => commitShift false (normOut false x s.bank.se (acOf s.astat)) s
  | .normLoOr => commitShift true (normOut false x s.bank.se (acOf s.astat)) s
  | .expHi => doExpHi x s
  | .expHix => doExpHix x s
  | .expLo => doExpLo x s
  | .expAdj => doExpAdj x s

/-- Whether a computation clause writes the data register `d` (R422). -/
def calcWrites (z : Dest) (k : Calc) (d : Dreg) : Bool :=
  match z, k with
  | .result, .alu _ _ _ => d == .ar
  | .result, .mac _ _ _ _ => d == .mr0 || d == .mr1 || d == .mr2
  | .feedback, _ => false

/-- Whether a shifter clause writes the data register `d` (R422). -/
def shiftWrites (f : ShFn) (d : Dreg) : Bool :=
  match f with
  | .expHi | .expHix | .expLo => d == .se
  | .expAdj => false
  | _ => d == .sr0 || d == .sr1

/-- An instruction that R422 refuses when `bad`, before anything else (R459 item 3). -/
def unlessTwoWriters (bad : Bool) (eff : State → Except Fault State) (s : State) : Out :=
  if bad then .fault .indeterminate else runPlain .plain eff s

/-- A clause beside a data-memory read (R430, R432): the read's effects come on top of the clause's. -/
def withDmRead (clause : State → State) (g : Dag) (d : Dreg) (i m : Fin 4) (s : State) : Except Fault State :=
  match dmFetch g i m s with
  | .error e => .error e
  | .ok (v, t, a) => .ok (setI g i a (writeDreg d v (clause t)))

/-- A clause beside a program-memory read (R431, R432). -/
def withPmRead (clause : State → State) (d : Dreg) (i m : Fin 4) (s : State) : Except Fault State :=
  match pmFetch i m s with
  | .error e => .error e
  | .ok (w, t, a) => .ok (setI .two i a (loadFromPm d w (clause t)))

/-- A clause beside a store (R436 to R438): the stored value and the address are those before it. -/
def afterStore (clause : State → State) (store : State → Except Fault State) (s : State) : Except Fault State :=
  match store s with
  | .error e => .error e
  | .ok t => .ok (clause t)

/-- DD as a data register (R171). -/
def DdReg.toDreg : DdReg → Dreg
  | .ax0 => .ax0
  | .ax1 => .ax1
  | .mx0 => .mx0
  | .mx1 => .mx1

/-- PD as a data register (R171). -/
def PdReg.toDreg : PdReg → Dreg
  | .ay0 => .ay0
  | .ay1 => .ay1
  | .my0 => .my0
  | .my1 => .my1

/-- A clause beside the two reads of type 1 (R440, R441): program memory first (R102). -/
def withDualRead (clause : State → State) (pd : PdReg) (dd : DdReg) (pi pm di dm : Fin 4) (s : State) :
    Except Fault State :=
  match modifiedI .one di dm s with
  | .error e => .error e
  | .ok ai =>
    match pmFetch pi pm s with
    | .error e => .error e
    | .ok (w, t, ap) =>
      match memReadDm (dagAddr .one di s) t with
      | .error e => .error e
      | .ok (v, u) =>
        .ok (setI .two pi ap (setI .one di ai
          (loadFromPm (PdReg.toDreg pd) w (writeDreg (DdReg.toDreg dd) v (clause u)))))


/-- `<ALU>|<MAC>, dreg = DM(I, M)`, R430. -/
def execCompDmRead (g : Dag) (z : Dest) (k : Calc) (d : Dreg) (i m : Fin 4) (s : State) : Out :=
  unlessTwoWriters (calcWrites z k d) (fun t => withDmRead (compute z k t) g d i m t) s

/-- `<ALU>|<MAC>, dreg = PM(I, M)`, R431. -/
def execCompPmRead (z : Dest) (k : Calc) (d : Dreg) (i m : Fin 4) (s : State) : Out :=
  unlessTwoWriters (calcWrites z k d) (fun t => withPmRead (compute z k t) d i m t) s

/-- `<SHIFT>, dreg = DM(I, M)`, R432. -/
def execShiftDmRead (g : Dag) (f : ShFn) (x : ShX) (d : Dreg) (i m : Fin 4) (s : State) : Out :=
  unlessTwoWriters (shiftWrites f d)
    (fun t => withDmRead (shiftClause f (shXVal x t)) g d i m t) s

/-- `<SHIFT>, dreg = PM(I, M)`, R432. -/
def execShiftPmRead (f : ShFn) (x : ShX) (d : Dreg) (i m : Fin 4) (s : State) : Out :=
  unlessTwoWriters (shiftWrites f d)
    (fun t => withPmRead (shiftClause f (shXVal x t)) d i m t) s

/-- `dreg = dreg` beside a computation, or alone for AMF = 00000 (R433). -/
def computeMove (z : Dest) (k : Option Calc) (d r : Dreg) (s : State) : State :=
  match k with
  | none => writeDreg d (readDreg r s) s
  | some k => writeDreg d (readDreg r s) (compute z k s s)

/-- `<ALU>|<MAC>, dreg = dreg`, R433; no computation for AMF = 00000. -/
def execCompMove (z : Dest) (k : Option Calc) (d r : Dreg) (s : State) : Out :=
  unlessTwoWriters (k.any fun k => calcWrites z k d) (fun t => .ok (computeMove z k d r t)) s

/-- `<SHIFT>, dreg = dreg`, R434. -/
def execShiftMove (f : ShFn) (x : ShX) (d r : Dreg) (s : State) : Out :=
  unlessTwoWriters (shiftWrites f d)
    (fun t => .ok (writeDreg d (readDreg r t) (shiftClause f (shXVal x t) t))) s

/-- `DM(I, M) = dreg, <ALU>|<MAC>`, R436. -/
def execCompDmWrite (g : Dag) (z : Dest) (k : Calc) (r : Dreg) (i m : Fin 4) (s : State) : Out :=
  runPlain .plain (fun t => afterStore (compute z k t) (dmStore g (readDreg r t) i m) t) s

/-- `PM(I, M) = dreg, <ALU>|<MAC>`, R437. -/
def execCompPmWrite (z : Dest) (k : Calc) (r : Dreg) (i m : Fin 4) (s : State) : Out :=
  runPlain .plain (fun t => afterStore (compute z k t) (pmStore (readDreg r t) i m) t) s

/-- `DM(I, M) = dreg, <SHIFT>`, R438. -/
def execShiftDmWrite (g : Dag) (f : ShFn) (x : ShX) (r : Dreg) (i m : Fin 4) (s : State) : Out :=
  runPlain .plain
    (fun t => afterStore (shiftClause f (shXVal x t)) (dmStore g (readDreg r t) i m) t) s

/-- `PM(I, M) = dreg, <SHIFT>`, R438. -/
def execShiftPmWrite (f : ShFn) (x : ShX) (r : Dreg) (i m : Fin 4) (s : State) : Out :=
  runPlain .plain
    (fun t => afterStore (shiftClause f (shXVal x t)) (pmStore (readDreg r t) i m) t) s

/-- DM and PM read, R440. -/
def execDualRead (pd : PdReg) (dd : DdReg) (pi pm di dm : Fin 4) (s : State) : Out :=
  runPlain .plain (fun t => withDualRead (fun u => u) pd dd pi pm di dm t) s

/-- `<ALU>|<MAC>` with DM and PM read, R441. -/
def execCompDualRead (k : Calc) (pd : PdReg) (dd : DdReg) (pi pm di dm : Fin 4) (s : State) : Out :=
  runPlain .plain (fun t => withDualRead (compute .result k t) pd dd pi pm di dm t) s

end Sys2Proof.Machine
end

