-- ==== Sys2Proof/Machine/Dispatch.lean ====
section
/-! DEFINITION. The meaning of every instruction: one arm, one direct call. -/

namespace Sys2Proof.Machine

def exec (i : Instr) (s : State) : Host.Outcome State Fault Refusal :=
  match i with
  | .addXY z x y c => Sys2Proof.Machine.execAddXY z x y c s
  | .addXK z x k c => Sys2Proof.Machine.execAddXK z x k c s
  | .addcXY z x y c => Sys2Proof.Machine.execAddcXY z x y c s
  | .addcXK z x k c => Sys2Proof.Machine.execAddcXK z x k c s
  | .subXY z x y c => Sys2Proof.Machine.execSubXY z x y c s
  | .subXK z x k c => Sys2Proof.Machine.execSubXK z x k c s
  | .subbXY z x y c => Sys2Proof.Machine.execSubbXY z x y c s
  | .subbXK z x k c => Sys2Proof.Machine.execSubbXK z x k c s
  | .rsubXY z x y c => Sys2Proof.Machine.execRsubXY z x y c s
  | .rsubXK z x k c => Sys2Proof.Machine.execRsubXK z x k c s
  | .rsubbXY z x y c => Sys2Proof.Machine.execRsubbXY z x y c s
  | .rsubbXK z x k c => Sys2Proof.Machine.execRsubbXK z x k c s
  | .andXY z x y c => Sys2Proof.Machine.execAndXY z x y c s
  | .andXK z x k c => Sys2Proof.Machine.execAndXK z x k c s
  | .orXY z x y c => Sys2Proof.Machine.execOrXY z x y c s
  | .orXK z x k c => Sys2Proof.Machine.execOrXK z x k c s
  | .xorXY z x y c => Sys2Proof.Machine.execXorXY z x y c s
  | .xorXK z x k c => Sys2Proof.Machine.execXorXK z x k c s
  | .tstBit z n x c => Sys2Proof.Machine.execTstBit z n x c s
  | .setBit z n x c => Sys2Proof.Machine.execSetBit z n x c s
  | .clrBit z n x c => Sys2Proof.Machine.execClrBit z n x c s
  | .tglBit z n x c => Sys2Proof.Machine.execTglBit z n x c s
  | .passY z y c => Sys2Proof.Machine.execPassY z y c s
  | .passZero z c => Sys2Proof.Machine.execPassZero z c s
  | .passX z x c => Sys2Proof.Machine.execPassX z x c s
  | .passOne z c => Sys2Proof.Machine.execPassOne z c s
  | .passMinusOne z c => Sys2Proof.Machine.execPassMinusOne z c s
  | .passK z k c => Sys2Proof.Machine.execPassK z k c s
  | .passKInc z k c => Sys2Proof.Machine.execPassKInc z k c s
  | .passKDec z k c => Sys2Proof.Machine.execPassKDec z k c s
  | .negX z x c => Sys2Proof.Machine.execNegX z x c s
  | .negY z y c => Sys2Proof.Machine.execNegY z y c s
  | .notX z x c => Sys2Proof.Machine.execNotX z x c s
  | .notY z y c => Sys2Proof.Machine.execNotY z y c s
  | .absX z x c => Sys2Proof.Machine.execAbsX z x c s
  | .incY z y c => Sys2Proof.Machine.execIncY z y c s
  | .decY z y c => Sys2Proof.Machine.execDecY z y c s
  | .divs y x => Sys2Proof.Machine.execDivs y x s
  | .divq x => Sys2Proof.Machine.execDivq x s
  | .noneAlu f x y => Sys2Proof.Machine.execNoneAlu f x y s
  | .mulSS z x y c => Sys2Proof.Machine.execMulSS z x y c s
  | .mulSU z x y c => Sys2Proof.Machine.execMulSU z x y c s
  | .mulUS z x y c => Sys2Proof.Machine.execMulUS z x y c s
  | .mulUU z x y c => Sys2Proof.Machine.execMulUU z x y c s
  | .mulRND z x y c => Sys2Proof.Machine.execMulRND z x y c s
  | .macSS z x y c => Sys2Proof.Machine.execMacSS z x y c s
  | .macSU z x y c => Sys2Proof.Machine.execMacSU z x y c s
  | .macUS z x y c => Sys2Proof.Machine.execMacUS z x y c s
  | .macUU z x y c => Sys2Proof.Machine.execMacUU z x y c s
  | .macRND z x y c => Sys2Proof.Machine.execMacRND z x y c s
  | .msubSS z x y c => Sys2Proof.Machine.execMsubSS z x y c s
  | .msubSU z x y c => Sys2Proof.Machine.execMsubSU z x y c s
  | .msubUS z x y c => Sys2Proof.Machine.execMsubUS z x y c s
  | .msubUU z x y c => Sys2Proof.Machine.execMsubUU z x y c s
  | .msubRND z x y c => Sys2Proof.Machine.execMsubRND z x y c s
  | .sqSS z x c => Sys2Proof.Machine.execSqSS z x c s
  | .sqUU z x c => Sys2Proof.Machine.execSqUU z x c s
  | .sqRND z x c => Sys2Proof.Machine.execSqRND z x c s
  | .macSqSS z x c => Sys2Proof.Machine.execMacSqSS z x c s
  | .macSqUU z x c => Sys2Proof.Machine.execMacSqUU z x c s
  | .macSqRND z x c => Sys2Proof.Machine.execMacSqRND z x c s
  | .msubSqSS z x c => Sys2Proof.Machine.execMsubSqSS z x c s
  | .msubSqUU z x c => Sys2Proof.Machine.execMsubSqUU z x c s
  | .msubSqRND z x c => Sys2Proof.Machine.execMsubSqRND z x c s
  | .clearMR z c => Sys2Proof.Machine.execClearMR z c s
  | .transferMR z c => Sys2Proof.Machine.execTransferMR z c s
  | .transferMRRnd z c => Sys2Proof.Machine.execTransferMRRnd z c s
  | .satMR => Sys2Proof.Machine.execSatMR s
  | .lshiftHi x c => Sys2Proof.Machine.execLshiftHi x c s
  | .lshiftHiOr x c => Sys2Proof.Machine.execLshiftHiOr x c s
  | .lshiftLo x c => Sys2Proof.Machine.execLshiftLo x c s
  | .lshiftLoOr x c => Sys2Proof.Machine.execLshiftLoOr x c s
  | .ashiftHi x c => Sys2Proof.Machine.execAshiftHi x c s
  | .ashiftHiOr x c => Sys2Proof.Machine.execAshiftHiOr x c s
  | .ashiftLo x c => Sys2Proof.Machine.execAshiftLo x c s
  | .ashiftLoOr x c => Sys2Proof.Machine.execAshiftLoOr x c s
  | .normHi x c => Sys2Proof.Machine.execNormHi x c s
  | .normHiOr x c => Sys2Proof.Machine.execNormHiOr x c s
  | .normLo x c => Sys2Proof.Machine.execNormLo x c s
  | .normLoOr x c => Sys2Proof.Machine.execNormLoOr x c s
  | .expHi x c => Sys2Proof.Machine.execExpHi x c s
  | .expHix x c => Sys2Proof.Machine.execExpHix x c s
  | .expLo x c => Sys2Proof.Machine.execExpLo x c s
  | .expAdj x c => Sys2Proof.Machine.execExpAdj x c s
  | .lshiftImmHi x e => Sys2Proof.Machine.execLshiftImmHi x e s
  | .lshiftImmHiOr x e => Sys2Proof.Machine.execLshiftImmHiOr x e s
  | .lshiftImmLo x e => Sys2Proof.Machine.execLshiftImmLo x e s
  | .lshiftImmLoOr x e => Sys2Proof.Machine.execLshiftImmLoOr x e s
  | .ashiftImmHi x e => Sys2Proof.Machine.execAshiftImmHi x e s
  | .ashiftImmHiOr x e => Sys2Proof.Machine.execAshiftImmHiOr x e s
  | .ashiftImmLo x e => Sys2Proof.Machine.execAshiftImmLo x e s
  | .ashiftImmLoOr x e => Sys2Proof.Machine.execAshiftImmLoOr x e s
  | .regMove d r => Sys2Proof.Machine.execRegMove d r s
  | .loadDreg d v => Sys2Proof.Machine.execLoadDreg d v s
  | .loadReg d v => Sys2Proof.Machine.execLoadReg d v s
  | .dmReadDirect d a => Sys2Proof.Machine.execDmReadDirect d a s
  | .dmWriteDirect a r => Sys2Proof.Machine.execDmWriteDirect a r s
  | .dmRead g d p m => Sys2Proof.Machine.execDmRead g d p m s
  | .dmWrite g r p m => Sys2Proof.Machine.execDmWrite g r p m s
  | .dmWriteImm g v p m => Sys2Proof.Machine.execDmWriteImm g v p m s
  | .pmRead d p m => Sys2Proof.Machine.execPmRead d p m s
  | .pmWrite r p m => Sys2Proof.Machine.execPmWrite r p m s
  | .ioRead d a => Sys2Proof.Machine.execIoRead d a s
  | .ioWrite a r => Sys2Proof.Machine.execIoWrite a r s
  | .jump a c => Sys2Proof.Machine.execJump a c s
  | .jumpInd p c => Sys2Proof.Machine.execJumpInd p c s
  | .call a c => Sys2Proof.Machine.execCall a c s
  | .callInd p c => Sys2Proof.Machine.execCallInd p c s
  | .jumpFlagIn on a => Sys2Proof.Machine.execJumpFlagIn on a s
  | .callFlagIn on a => Sys2Proof.Machine.execCallFlagIn on a s
  | .flagOut f2 f1 f0 fo c => Sys2Proof.Machine.execFlagOut f2 f1 f0 fo c s
  | .rts c => Sys2Proof.Machine.execRts c s
  | .rti c => Sys2Proof.Machine.execRti c s
  | .doUntil a t => Sys2Proof.Machine.execDoUntil a t s
  | .idle => Sys2Proof.Machine.execIdle s
  | .idleN n => Sys2Proof.Machine.execIdleN n s
  | .stackControl pp lp cp sp => Sys2Proof.Machine.execStackControl pp lp cp sp s
  | .regFromTop d => Sys2Proof.Machine.execRegFromTop d s
  | .topFromReg r => Sys2Proof.Machine.execTopFromReg r s
  | .modeControl ti mm as ol br sr gm => Sys2Proof.Machine.execModeControl ti mm as ol br sr gm s
  | .modify g p m => Sys2Proof.Machine.execModify g p m s
  | .nop => Sys2Proof.Machine.execNop s
  | .nopType9 => Sys2Proof.Machine.execNopType9 s
  | .enaInts => Sys2Proof.Machine.execEnaInts s
  | .disInts => Sys2Proof.Machine.execDisInts s
  | .compDmRead g z k d p m => Sys2Proof.Machine.execCompDmRead g z k d p m s
  | .compPmRead z k d p m => Sys2Proof.Machine.execCompPmRead z k d p m s
  | .shiftDmRead g f x d p m => Sys2Proof.Machine.execShiftDmRead g f x d p m s
  | .shiftPmRead f x d p m => Sys2Proof.Machine.execShiftPmRead f x d p m s
  | .compMove z k d r => Sys2Proof.Machine.execCompMove z k d r s
  | .shiftMove f x d r => Sys2Proof.Machine.execShiftMove f x d r s
  | .compDmWrite g z k r p m => Sys2Proof.Machine.execCompDmWrite g z k r p m s
  | .compPmWrite z k r p m => Sys2Proof.Machine.execCompPmWrite z k r p m s
  | .shiftDmWrite g f x r p m => Sys2Proof.Machine.execShiftDmWrite g f x r p m s
  | .shiftPmWrite f x r p m => Sys2Proof.Machine.execShiftPmWrite f x r p m s
  | .dualRead pd dd pi pm di dm => Sys2Proof.Machine.execDualRead pd dd pi pm di dm s
  | .compDualRead k pd dd pi pm di dm => Sys2Proof.Machine.execCompDualRead k pd dd pi pm di dm s

end Sys2Proof.Machine
end

