-- ==== Sys2Proof/Machine/Step.lean ====
section
/-!
DEFINITION. One step of the machine (R462): the environment, the interrupt check, or one instruction
fetched at the pc, decoded and executed, with the delayed pop of R396 at its end.
-/

namespace Sys2Proof.Machine

/-- `machine_step` (R462). -/
def step (s : State) : Host.Outcome State Fault Refusal :=
  let e := environmentStep s
  match interruptDue e with
  | some q => if e.pcPopPending then .fault .pcPopHazard else toOutcome (takeInterrupt q e)
  | none =>
    if e.idle then .next e
    else
      match fetch e with
      | .error f => .fault f
      | .ok (w, t) =>
        match decode t.cfg w with
        | none => .fault (.reservedInstruction w)
        | some i => finishStep e.pcPopPending (exec i t)

/-- The state with an instruction word stored where the next step fetches, and nothing that would keep
the step from fetching it: no stale mark in PM_DIRTY, no idle state, no interrupt pending or requested
(log 20). -/
def State.withFetchWord (s : State) (nbits w : Nat) : State :=
  { s with
    pm := Memory.writePm s.pm s.pc (BitVec.ofNat 24 (w % 2 ^ nbits))
    pmDirty := s.pmDirty.filter fun a => a != s.pc.toNat
    idle := false
    irqPending := 0
    irqInputs := [] }

end Sys2Proof.Machine
end

