-- ==== Sys2Proof/Safety.lean ====
section
/-!
DEFINITION. What a safe run is, in the terms claims use: runs of several steps, runs without a fault, and
the one final state of the machine (R493).
-/

namespace Sys2Proof.Machine

/-- The run of `n` steps from `s` meets no fault and no refusal (R493 (a)). -/
def FaultFree (n : Nat) (s : State) : Prop := ∃ t, Host.Core.run Sys2Proof.core n s = .next t

/-- `t` is reached from `s` by some number of steps. -/
def Reaches (s t : State) : Prop := ∃ n, Host.Core.run Sys2Proof.core n s = .next t

/-- The innermost loop's termination condition holds (R161), on the flags before the instruction. -/
def loopDone (s : State) : Bool :=
  match s.loopStack with
  | [] => false
  | e :: _ => termHolds e.term s

/-- The loop outside the innermost one ends at the same address (R373 item 5). -/
def nestedEnd (s : State) : Bool :=
  match s.loopStack with
  | _ :: e :: _ => e.addr == s.pc
  | _ => false

/-- An instruction with no hazard of its own may execute here and go on (R372, R373): away from a loop's
end always; at a loop's end when no delayed pop is pending, the loop has its entry on the PC stack, a
counter that CE tests is not 0, and no outer loop ends here when this one does. -/
def CanAdvance (s : State) : Prop :=
  atLoopEnd s = true →
    s.pcPopPending = false ∧ s.pcStack ≠ [] ∧ (endsOnCe s = true → s.cntr ≠ 0) ∧
      (loopDone s = true → nestedEnd s = false)

/-- The state after an instruction that started in `s` and left `t` with the pc still on it (R372): the next
address; at a loop's end the loop's first instruction again, or, when the loop is done, its entries
popped; CE counts down (R162). -/
def advance (s t : State) : State :=
  if atLoopEnd s then
    let u := if endsOnCe s then ceTick t else t
    if loopDone s then
      { u with loopStack := u.loopStack.tail, pcStack := u.pcStack.tail, pc := s.pc + 1 }
    else { u with pc := u.pcStack.headD 0 }
  else { t with pc := s.pc + 1 }

/-- A condition may be evaluated here: NOT CE needs a count, and may not end a CE loop (R162, R373). -/
def CanTest (c : Cond) (s : State) : Prop :=
  c = .notCe → s.cntr ≠ 0 ∧ (atLoopEnd s = true → endsOnCe s = false)

/-- The state after a condition was evaluated (R162): NOT CE counts down, no other condition changes
anything. -/
def tested (c : Cond) (s : State) : State := if c = .notCe then ceTick s else s

/-- The final state of R493 (b): idle, no interrupt eligible, and none to come from the environment. -/
def Resting (s : State) : Prop := s.idle = true ∧ interruptDue s = none ∧ s.irqInputs = []

end Sys2Proof.Machine
end

