-- ==== Sys2Proof/Certificates/Slice0/Obligations.lean ====
section
/-!
DEFINITION. The statements for the provers. The first part, namespace `Sys2Proof.Spec`, writes out what
the rules of spec/ say in terms of its own: sums and products of mathematical integers, a flag register
put together bit by bit, shifts told per bit, exponents and moduli by what characterises them, memory by
what reads back. The second part states that the machine does just that. A state that a statement gives
in full is the frame too: whatever it does not name is unchanged.
-/

namespace Sys2Proof.Spec

open Sys2Proof.Machine

/-! ## Conditions and completion -/

/-- COND (R160): the tests of the flags; NOT CE holds unless this evaluation uses up the count (R162). -/
def condTrue (c : Cond) (s : State) : Bool :=
  let az := s.astat.getLsbD 0
  let an := s.astat.getLsbD 1
  let av := s.astat.getLsbD 2
  match c with
  | .eq => az
  | .ne => !az
  | .gt => an == av && !az
  | .le => an != av || az
  | .lt => an != av
  | .ge => an == av
  | .av => av
  | .notAv => !av
  | .ac => s.astat.getLsbD 3
  | .notAc => !s.astat.getLsbD 3
  | .neg => s.astat.getLsbD 4
  | .pos => !s.astat.getLsbD 4
  | .mv => s.astat.getLsbD 6
  | .notMv => !s.astat.getLsbD 6
  | .notCe => decide (s.cntr.toNat ≠ 1)
  | .always => true

/-- TERM (R161): a loop ends when this holds of ASTAT before its last instruction. -/
def termTrue (t : Term) (s : State) : Bool :=
  let az := s.astat.getLsbD 0
  let an := s.astat.getLsbD 1
  let av := s.astat.getLsbD 2
  match t with
  | .eq => az
  | .ne => !az
  | .gt => an == av && !az
  | .le => an != av || az
  | .lt => an != av
  | .ge => an == av
  | .av => av
  | .notAv => !av
  | .ac => s.astat.getLsbD 3
  | .notAc => !s.astat.getLsbD 3
  | .neg => s.astat.getLsbD 4
  | .pos => !s.astat.getLsbD 4
  | .mv => s.astat.getLsbD 6
  | .notMv => !s.astat.getLsbD 6
  | .ce => decide (s.cntr.toNat = 1)
  | .forever => false

/-- A conditional instruction completes: with its effect when the condition holds, with none when not, the
sequencing as `advance` says (R200, R250, R280, R372). -/
def Runs (i : Instr) (c : Cond) (eff : State → State) : Prop :=
  ∀ s, CanAdvance s → CanTest c s →
    exec i s = .next (advance s (if condTrue c s then eff (tested c s) else tested c s))

/-- An unconditional instruction completes with its effect (R310, R372). -/
def RunsPlain (i : Instr) (eff : State → State) : Prop :=
  ∀ s, CanAdvance s → exec i s = .next (advance s (eff s))

/-! ## Registers -/

/-- ASTAT as R36 lays it out. -/
def astatOf (az an av ac as aq mv ss : Bool) : BitVec 8 :=
  BitVec.ofBool ss ++ BitVec.ofBool mv ++ BitVec.ofBool aq ++ BitVec.ofBool as ++
  BitVec.ofBool ac ++ BitVec.ofBool av ++ BitVec.ofBool an ++ BitVec.ofBool az

/-- ASTAT with bit `n` replaced and the other seven kept (R38). -/
def astatWith (f : BitVec 8) (n : Nat) (b : Bool) : BitVec 8 :=
  let g : Nat → Bool := fun k => if k = n then b else f.getLsbD k
  astatOf (g 0) (g 1) (g 2) (g 3) (g 4) (g 5) (g 6) (g 7)

/-- The bank SEC_REG selects (R28). -/
def active (s : State) : Bank := if s.mstat.getLsbD 0 then s.sec else s.prim

/-- The selected bank replaced (R28). -/
def setActive (b : Bank) (s : State) : State :=
  if s.mstat.getLsbD 0 then { s with sec := b } else { s with prim := b }

/-- The 16-bit value of a data register (R26, R57): SE and MR2 are signed. -/
def dregVal (d : Dreg) (s : State) : Word :=
  let b := active s
  match d with
  | .ax0 => b.ax0
  | .ax1 => b.ax1
  | .mx0 => b.mx0
  | .mx1 => b.mx1
  | .ay0 => b.ay0
  | .ay1 => b.ay1
  | .my0 => b.my0
  | .my1 => b.my1
  | .si => b.si
  | .se => BitVec.ofInt 16 b.se.toInt
  | .ar => b.ar
  | .mr0 => b.mr0
  | .mr1 => b.mr1
  | .mr2 => BitVec.ofInt 16 b.mr2.toInt
  | .sr0 => b.sr0
  | .sr1 => b.sr1

/-- The ALU xops (R163, R204): data registers, MR2 with its sign (R24). -/
def xopAlu (x : AluX) : State → Word :=
  match x with
  | .ax0 => dregVal .ax0
  | .ax1 => dregVal .ax1
  | .ar => dregVal .ar
  | .mr0 => dregVal .mr0
  | .mr1 => dregVal .mr1
  | .mr2 => dregVal .mr2
  | .sr0 => dregVal .sr0
  | .sr1 => dregVal .sr1

/-- The ALU yops (R163, R204): AY0, AY1, AF and the constant 0. -/
def yopAlu (y : AluY) (s : State) : Word :=
  match y with
  | .ay0 => dregVal .ay0 s
  | .ay1 => dregVal .ay1 s
  | .af => (active s).af
  | .zero => 0

/-- The MAC xops (R163, R250). -/
def xopMac (x : MacX) : State → Word :=
  match x with
  | .mx0 => dregVal .mx0
  | .mx1 => dregVal .mx1
  | .ar => dregVal .ar
  | .mr0 => dregVal .mr0
  | .mr1 => dregVal .mr1
  | .mr2 => dregVal .mr2
  | .sr0 => dregVal .sr0
  | .sr1 => dregVal .sr1

/-- The MAC yops (R163, R250): MY0, MY1, MF and the constant 0. -/
def yopMac (y : MacY) (s : State) : Word :=
  match y with
  | .my0 => dregVal .my0 s
  | .my1 => dregVal .my1 s
  | .mf => (active s).mf
  | .zero => 0

/-- The shifter xops (R163, R280). -/
def xopShift (x : ShX) : State → Word :=
  match x with
  | .si => dregVal .si
  | .ar => dregVal .ar
  | .mr0 => dregVal .mr0
  | .mr1 => dregVal .mr1
  | .mr2 => dregVal .mr2
  | .sr0 => dregVal .sr0
  | .sr1 => dregVal .sr1

/-- MR as one 40-bit value (R22). -/
def mrOf (s : State) : Acc := (active s).mr2 ++ (active s).mr1 ++ (active s).mr0

/-- The program-memory destinations of type 1 (R171). -/
def pdDreg : PdReg → Dreg
  | .ay0 => .ay0
  | .ay1 => .ay1
  | .my0 => .my0
  | .my1 => .my1

/-- The data-memory destinations of type 1 (R171). -/
def ddDreg : DdReg → Dreg
  | .ax0 => .ax0
  | .ax1 => .ax1
  | .mx0 => .mx0
  | .mx1 => .mx1

/-- A data register loaded by a move (R311, R23): narrow registers keep the low bits, MR1 extends its sign
into MR2. -/
def putDreg (d : Dreg) (v : Word) (s : State) : State :=
  let b := active s
  setActive
    (match d with
    | .ax0 => { b with ax0 := v }
    | .ax1 => { b with ax1 := v }
    | .mx0 => { b with mx0 := v }
    | .mx1 => { b with mx1 := v }
    | .ay0 => { b with ay0 := v }
    | .ay1 => { b with ay1 := v }
    | .my0 => { b with my0 := v }
    | .my1 => { b with my1 := v }
    | .si => { b with si := v }
    | .se => { b with se := v.extractLsb' 0 8 }
    | .ar => { b with ar := v }
    | .mr0 => { b with mr0 := v }
    | .mr1 => { b with mr1 := v, mr2 := if v.toInt < 0 then 0xFF else 0 }
    | .mr2 => { b with mr2 := v.extractLsb' 0 8 }
    | .sr0 => { b with sr0 := v }
    | .sr1 => { b with sr1 := v }) s

/-- The 16-bit value of a register as the source of a move (R57, R311); a port has none of its own. -/
def regVal (r : Reg) (s : State) : Word :=
  match r with
  | .dreg d => dregVal d s
  | .i n => BitVec.ofNat 16 (s.ireg.get n).toNat
  | .m n => BitVec.ofInt 16 (s.mreg.get n).toInt
  | .l n => BitVec.ofNat 16 (s.lreg.get n).toNat
  | .astat => BitVec.ofNat 16 s.astat.toNat
  | .mstat => BitVec.ofNat 16 s.mstat.toNat
  | .imask => s.imask
  | .icntl => s.icntl
  | .cntr => BitVec.ofNat 16 s.cntr.toNat
  | .sb => BitVec.ofInt 16 (active s).sb.toInt
  | .px => BitVec.ofNat 16 s.px.toNat
  | .port _ => 0

/-- SSTAT as R43 lays it out: LSO LSE SSO SSE CSO CSE PSO PSE. -/
def sstatVal (s : State) : Word :=
  BitVec.ofNat 16
    ((if s.pcStack = [] then 1 else 0) + (if s.pso then 2 else 0) +
     (if s.cntrStack = [] then 4 else 0) + (if s.cso then 8 else 0) +
     (if s.statusStack = [] then 16 else 0) + (if s.sso then 32 else 0) +
     (if s.loopStack = [] then 64 else 0) + (if s.lso then 128 else 0))

/-- Reading the source of a move leaves `t` and gives `v` (R311); a port gives a free value and an event
(R472). -/
def SrcReads (r : SrcReg) (s : State) (v : Word) (t : State) : Prop :=
  match r with
  | .sstat => v = sstatVal s ∧ t = s
  | .reg (.port p) =>
    v = (Config.oracle s.draws).setWidth 16 ∧
      t = { s with draws := s.draws + 1, events := .portRead p v :: s.events }
  | .reg r => v = regVal r s ∧ t = s

/-- The source of a move may be read (R318): CNTR not after its count expired; that it reads as the value it holds
where nothing has written it is the model's (log 12). -/
def CanRead (r : SrcReg) (s : State) : Prop := r = .reg .cntr → s.cntrValid = true ∨ s.cntrExpired = false

/-- `u` is `v` with the bits from `n` up cleared. -/
def LowBits (n : Nat) (v u : BitVec 16) : Prop :=
  ∀ k, k < 16 → u.getLsbD k = (decide (k < n) && v.getLsbD k)

/-- Writing `v` to the destination of a move takes `s` to `t` (R311, R314, R318, R463). -/
def DstWrites (d : DstReg) (v : Word) (s t : State) : Prop :=
  match d with
  | .reg (.dreg d) => t = putDreg d v s
  | .reg (.i n) => t = { s with ireg := s.ireg.set n.val (v.extractLsb' 0 14) }
  | .reg (.m n) => t = { s with mreg := s.mreg.set n.val (v.extractLsb' 0 14) }
  | .reg (.l n) => t = { s with lreg := s.lreg.set n.val (v.extractLsb' 0 14) }
  | .reg .astat => t = { s with astat := v.extractLsb' 0 8 }
  | .reg .mstat => t = { s with mstat := v.extractLsb' 0 7 }
  | .reg .imask => ∃ u, LowBits s.cfg.imaskBits v u ∧ t = { s with imask := u }
  | .reg .icntl => ∃ u, LowBits s.cfg.icntlBits v u ∧ t = { s with icntl := u }
  | .reg .sb => t = setActive { active s with sb := v.extractLsb' 0 5 } s
  | .reg .px => t = { s with px := v.extractLsb' 0 8 }
  | .reg .cntr =>
    t = { s with cntr := v.extractLsb' 0 14, cntrValid := true,
                 cntrStack := if s.cntrValid then s.cntr :: s.cntrStack else s.cntrStack }
  | .owrcntr => t = { s with cntr := v.extractLsb' 0 14, cntrValid := true }
  | .reg (.port p) => t = { s with events := .portWrite p v :: s.events }
  | .ifc =>
    ∃ u p : BitVec 16, LowBits s.cfg.ifcBits v u ∧
      (∀ k : Fin 16, p.getLsbD k.val = true ↔
        (∃ q ∈ s.cfg.irqTable, q.latch = k ∧ ∃ f, q.forceBit = some f ∧ u.getLsbD f.val = true) ∨
        (s.irqPending.getLsbD k.val = true ∧
          ¬ ∃ q ∈ s.cfg.irqTable, q.latch = k ∧ ∃ f, q.clearBit = some f ∧ u.getLsbD f.val = true)) ∧
      t = { s with events := .ifcWrite u :: s.events, irqPending := p }

/-- Nothing stops a write to the destination (R318, R373 item 4): a write that saves the count has room for
it, and a write to the counter is not the last instruction of a CE loop. -/
def CanWrite (d : DstReg) (s : State) : Prop :=
  (d = .reg .cntr → s.cntrValid = true → s.cntrStack.length < s.cfg.cntrStackDepth) ∧
  (d = .reg .cntr ∨ d = .owrcntr → atLoopEnd s = true → endsOnCe s = false)

/-! ## ALU (40_alu.md) -/

/-- A result with no overflow and no carry. -/
def plainOut (r : Word) : AluOut := ⟨r, false, false, none⟩

/-- The sum of two words and a carry (R201): carry when it needs 17 bits, overflow when the signed sum
does not fit in 16. -/
def sumOut (a b : Word) (cin : Bool) : AluOut :=
  let z : Int := a.toInt + b.toInt + (if cin then 1 else 0)
  ⟨BitVec.ofNat 16 (a.toNat + b.toNat + cin.toNat), decide (z < -32768 ∨ 32767 < z),
    decide (65535 < a.toNat + b.toNat + cin.toNat), none⟩

/-- The difference of two words, less 1 when the carry `c` is 0 (R201, R208): carry when no borrow, overflow
when the signed difference does not fit in 16 bits. -/
def diffOut (a b : Word) (c : Bool) : AluOut :=
  let borrow : Nat := if c then 0 else 1
  let z : Int := a.toInt - b.toInt - borrow
  ⟨BitVec.ofInt 16 z, decide (z < -32768 ∨ 32767 < z), decide (b.toNat + borrow ≤ a.toNat), none⟩

/-- The absolute value (R226): 8000H stays and overflows. -/
def absOut (x : Word) : AluOut :=
  ⟨BitVec.ofNat 16 x.toInt.natAbs, decide (x.toInt = -32768), false, some (decide (x.toInt < 0))⟩

/-- The ALU functions (R167, R204). -/
def aluOut (f : AluFn) (x y : Word) (c : Bool) : AluOut :=
  match f with
  | .passY => plainOut y
  | .incY => sumOut y 1 false
  | .addC => sumOut x y c
  | .add => sumOut x y false
  | .notY => plainOut (~~~y)
  | .negY => diffOut 0 y true
  | .subC => diffOut x y c
  | .sub => diffOut x y true
  | .decY => diffOut y 1 true
  | .rsub => diffOut y x true
  | .rsubC => diffOut y x c
  | .notX => plainOut (~~~x)
  | .and => plainOut (x &&& y)
  | .or => plainOut (x ||| y)
  | .xor => plainOut (x ^^^ y)
  | .abs => absOut x

/-- ASTAT after an ALU result (R202, R39): AV is kept set in latch mode, AS changes only where the function
gives it, AQ, MV and SS stay. -/
def aluFlags (o : AluOut) (s : State) : BitVec 8 :=
  astatOf (decide (o.r.toNat = 0)) (decide (o.r.toInt < 0))
    (o.ov || (s.mstat.getLsbD 2 && s.astat.getLsbD 2)) o.ac
    (o.as.getD (s.astat.getLsbD 4)) (s.astat.getLsbD 5) (s.astat.getLsbD 6) (s.astat.getLsbD 7)

/-- An ALU result put away (R202, R203): flags, and AR, saturated in saturation mode, or AF, never. -/
def putAlu (z : Dest) (o : AluOut) (s : State) : State :=
  let t := { s with astat := aluFlags o s }
  match z with
  | .result =>
    setActive { active s with
      ar := if s.mstat.getLsbD 3 && o.ov then (if o.ac then 0x8000 else 0x7FFF) else o.r } t
  | .feedback => setActive { active s with af := o.r } t

/-- The effect of an ALU instruction of type 9. -/
def aluEff (f : AluFn) (z : Dest) (x y : State → Word) (s : State) : State :=
  putAlu z (aluOut f (x s) (y s) (s.astat.getLsbD 3)) s

/-- A constant (R166): 2 to the n, or the complement of that. -/
def constVal (k : Konst) : Word :=
  if k.inv then BitVec.ofNat 16 (65535 - 2 ^ k.n.val) else BitVec.ofNat 16 (2 ^ k.n.val)

/-- No operand is read. -/
def none16 : State → Word := fun _ => 0

/-- A divide step (R235, R236): AF and AY0 as one 32-bit number, shifted left with the quotient bit `b` below
it; AQ becomes `q`. -/
def divided (n : BitVec 32) (b q : Bool) (s : State) : State :=
  let m : BitVec 32 := (n <<< 1) ||| BitVec.ofNat 32 b.toNat
  setActive { active s with af := m.extractLsb' 16 16, ay0 := m.extractLsb' 0 16 }
    { s with astat := astatWith s.astat 5 q }

/-! ## MAC (41_mac.md) -/

/-- An operand as the format reads it (R252). -/
def operandInt (signed : Bool) (v : Word) : Int := if signed then v.toInt else v.toNat

/-- Round to the nearest multiple of 65536, ties to the even one unless biased; the low 16 bits are those of
the number plus 8000H (R255). -/
def rounded (biased : Bool) (n : Int) : Int :=
  let q := n / 65536
  let r := n % 65536
  let up : Int := if r < 32768 then 0 else if r = 32768 ∧ biased = false ∧ q % 2 = 0 then 0 else 1
  (q + up) * 65536 + (r + 32768) % 65536

/-- The result of a MAC operation as an integer, reduced to 40 bits (R251, R252). -/
def macOut (op : MacOp) (fmt : MacFmt) (x y : Word) (s : State) : Acc :=
  let b := active s
  let mr : Int := b.mr2.toInt * 4294967296 + b.mr1.toNat * 65536 + b.mr0.toNat
  let p : Int := operandInt (fmt == .ss || fmt == .su || fmt == .rnd) x *
    operandInt (fmt == .ss || fmt == .us || fmt == .rnd) y * (if s.mstat.getLsbD 4 then 1 else 2)
  let t : Int := match op with
    | .mul => p
    | .acc => mr + p
    | .sub => mr - p
  if fmt = .rnd then BitVec.ofInt 40 (rounded (s.cfg.biasedRnd && s.cfg.extAluMac) t) else BitVec.ofInt 40 t

/-- A MAC result put away (R254): MV, and MR or MF; no other flag. -/
def putMac (z : Dest) (res : Acc) (mv : Bool) (s : State) : State :=
  let t := { s with astat := astatWith s.astat 6 mv }
  match z with
  | .result => setActive { active s with
      mr2 := res.extractLsb' 32 8, mr1 := res.extractLsb' 16 16, mr0 := res.extractLsb' 0 16 } t
  | .feedback => setActive { active s with mf := res.extractLsb' 16 16 } t

/-- MV (R252): the result does not fit in 32 bits. -/
def mvOut (res : Acc) : Bool := decide (res.toInt < -2147483648 ∨ 2147483647 < res.toInt)

/-- The effect of a MAC instruction (R250). -/
def macEff (op : MacOp) (fmt : MacFmt) (z : Dest) (x y : State → Word) (s : State) : State :=
  let res := macOut op fmt (x s) (y s) s
  putMac z res (mvOut res) s

/-- The effect of a multiply: with yop = 0, in every format, that of MR|MF = 0 (R260, log 30). -/
def mulEff (fmt : MacFmt) (z : Dest) (x : MacX) (y : MacY) (s : State) : State :=
  if y = .zero then putMac z 0 false s else macEff .mul fmt z (xopMac x) (yopMac y) s

/-- A computation clause of a multifunction instruction (R421). -/
def putCalc (z : Dest) (k : Calc) (s : State) : State :=
  match k with
  | .alu f x y => aluEff f z (xopAlu x) (yopAlu y) s
  | .mac .mul fmt x y => mulEff fmt z x y s
  | .mac op fmt x y => macEff op fmt z (xopMac x) (yopMac y) s

/-! ## Shifter (42_shifter.md) -/

/-- `out` is the input moved up by `e` bits in 32 (R281): zeros enter from the right, `xb` fills from the
left, and what leaves is dropped. -/
def ShiftedBits (x : Word) (e : Int) (xb : Bool) (out : BitVec 32) : Prop :=
  ∀ k : Nat, k < 32 →
    out.getLsbD k =
      if (k : Int) < e then false else if e + 16 ≤ k then xb else x.getLsbD ((k : Int) - e).toNat

/-- A shift put away in SR, ORed with it or not (R282). -/
def Shifts (x : Word) (e : Int) (xb orSr : Bool) (s t : State) : Prop :=
  ∃ out, ShiftedBits x e xb out ∧
    t = setActive { active s with
      sr1 := if orSr then (active s).sr1 ||| out.extractLsb' 16 16 else out.extractLsb' 16 16
      sr0 := if orSr then (active s).sr0 ||| out.extractLsb' 0 16 else out.extractLsb' 0 16 } s

/-- The exponent of a signed number (R283): the least `e` from -15 up for which the number, shifted left by
`-e`, still fits in 16 bits. -/
def IsExponent (x : Word) (e : Int) : Prop :=
  -15 ≤ e ∧ e ≤ 0 ∧
  (-32768 ≤ x.toInt * 2 ^ (-e).toNat ∧ x.toInt * 2 ^ (-e).toNat < 32768) ∧
  (-15 < e → x.toInt * 2 ^ (1 - e).toNat < -32768 ∨ 32768 ≤ x.toInt * 2 ^ (1 - e).toNat)

/-- `k` leading bits of `x` equal `b`, and no more (R292). -/
def LeadingBits (b : Bool) (x : Word) (k : Nat) : Prop :=
  k ≤ 16 ∧ (∀ j, j < k → x.getLsbD (15 - j) = b) ∧ (k < 16 → x.getLsbD (15 - k) ≠ b)

/-- SE and SS replaced. -/
def putSeSs (e : Int) (ss : Bool) (s : State) : State :=
  setActive { active s with se := BitVec.ofInt 8 e }
    { s with astat := astatWith s.astat 7 ss }

/-- The effect of a shifter function on the input `x` (R285 to R295). -/
def ShEffect (f : ShFn) (x : Word) (s t : State) : Prop :=
  let se := (active s).se.toInt
  let sign := x.getLsbD 15
  match f with
  | .lshiftHi => Shifts x (se + 16) false false s t
  | .lshiftHiOr => Shifts x (se + 16) false true s t
  | .lshiftLo => Shifts x se false false s t
  | .lshiftLoOr => Shifts x se false true s t
  | .ashiftHi => Shifts x (se + 16) sign false s t
  | .ashiftHiOr => Shifts x (se + 16) sign true s t
  | .ashiftLo => Shifts x se sign false s t
  | .ashiftLoOr => Shifts x se sign true s t
  | .normHi => Shifts x (16 - se) (s.astat.getLsbD 3) false s t
  | .normHiOr => Shifts x (16 - se) (s.astat.getLsbD 3) true s t
  | .normLo => Shifts x (-se) false false s t
  | .normLoOr => Shifts x (-se) false true s t
  | .expHi => ∃ e, IsExponent x e ∧ t = putSeSs e sign s
  | .expHix =>
    if s.astat.getLsbD 2 then t = putSeSs 1 (!sign) s else ∃ e, IsExponent x e ∧ t = putSeSs e sign s
  | .expLo =>
    if se = -15 then
      ∃ k, LeadingBits (s.astat.getLsbD 7) x k ∧
        t = setActive { active s with se := BitVec.ofInt 8 (-(15 + (k : Int))) } s
    else t = s
  | .expAdj =>
    ∃ e, IsExponent x e ∧
      t = setActive { active s with
        sb := if (active s).sb.toInt < e then BitVec.ofInt 5 e else (active s).sb } s

/-- A conditional shifter instruction (R280). -/
def ShRuns (i : Instr) (f : ShFn) (x : ShX) (c : Cond) : Prop :=
  ∀ s, CanAdvance s → CanTest c s →
    ∃ t, (if condTrue c s then ShEffect f (xopShift x s) (tested c s) t else t = tested c s) ∧
      exec i s = .next (advance s t)

/-- A shift-immediate instruction (R300, R301). -/
def ImmRuns (i : Instr) (x : ShX) (e : Int) (arith orSr : Bool) : Prop :=
  ∀ s, CanAdvance s →
    ∃ t, Shifts (xopShift x s) e (arith && (xopShift x s).getLsbD 15) orSr s t ∧ exec i s = .next (advance s t)

/-! ## Memory (20_memory.md) -/

/-- The post-modified I (R92, R93): the sum when L is 0, else the address in the buffer that is congruent to
the sum modulo L; none when I lies outside its buffer or M is longer than the buffer. -/
def NextI (g : Dag) (i m : Fin 4) (s : State) (a : Addr) : Prop :=
  let iv := s.ireg.get (dagIndex g i)
  let mv := s.mreg.get (dagIndex g m)
  let lv := (s.lreg.get (dagIndex g i)).toNat
  if lv = 0 then a = BitVec.ofInt 14 (iv.toNat + mv.toInt)
  else
    ∃ n base : Nat, lv ≤ 2 ^ n ∧ (∀ k, k < n → 2 ^ k < lv) ∧ base = 2 ^ n * (iv.toNat / 2 ^ n) ∧
      iv.toNat < base + lv ∧ mv.toInt.natAbs ≤ lv ∧ base ≤ a.toNat ∧ a.toNat < base + lv ∧
      (lv : Int) ∣ (a.toNat : Int) - ((iv.toNat : Int) + mv.toInt)

/-- I replaced. -/
def putI (g : Dag) (i : Fin 4) (a : Addr) (s : State) : State :=
  { s with ireg := s.ireg.set (dagIndex g i).val a }

/-- A data-memory read at `a` gives `v` and leaves `t` (R82): the stored word, or a device's free value. -/
def DmReads (a : Addr) (s : State) (v : Word) (t : State) : Prop :=
  match backing s.cfg.dmMap a.toNat with
  | some .ram | some .rom => Memory.readDm s.dm a = some v ∧ t = s
  | some .device =>
    v = (Config.oracle s.draws).setWidth 16 ∧
      t = { s with draws := s.draws + 1, events := .devRead .dm a (v.setWidth 24) :: s.events }
  | none => False

/-- A program-memory read at `a` gives `w` and leaves `t` (R84). -/
def PmReads (a : Addr) (s : State) (w : PWord) (t : State) : Prop :=
  match backing s.cfg.pmMap a.toNat with
  | some .ram | some .rom => Memory.readPm s.pm a = some w ∧ t = s
  | some .device =>
    w = Config.oracle s.draws ∧
      t = { s with draws := s.draws + 1, events := .devRead .pm a w :: s.events }
  | none => False

/-- A data-memory write of `v` at `a` takes `s` to `t` (R83): the word reads back, and every byte outside it
is as before; or a device hears of it. -/
def DmStores (a : Addr) (v : Word) (s t : State) : Prop :=
  match backing s.cfg.dmMap a.toNat with
  | some .ram =>
    t = { s with dm := t.dm } ∧ Memory.readDm t.dm a = some v ∧
      ∀ k, k ≠ 2 * a.toNat → k ≠ 2 * a.toNat + 1 → Memory.read t.dm k = Memory.read s.dm k
  | some .device => t = { s with events := .devWrite .dm a (v.setWidth 24) :: s.events }
  | _ => False

/-- A program-memory write of `w` at `a` takes `s` to `t` (R85); `a` joins PM_DIRTY. -/
def PmStores (a : Addr) (w : PWord) (s t : State) : Prop :=
  (∀ k, k ∈ t.pmDirty ↔ k = a.toNat ∨ k ∈ s.pmDirty) ∧
  match backing s.cfg.pmMap a.toNat with
  | some .ram =>
    t = { s with pm := t.pm, pmDirty := t.pmDirty } ∧ Memory.readPm t.pm a = some w ∧
      ∀ k, k ≠ 3 * a.toNat → k ≠ 3 * a.toNat + 1 → k ≠ 3 * a.toNat + 2 →
        Memory.read t.pm k = Memory.read s.pm k
  | some .device => t = { s with pmDirty := t.pmDirty, events := .devWrite .pm a w :: s.events }
  | _ => False

/-- An address that a store may reach (R83, R85): RAM or a device. -/
def Writable (m : List Region) (a : Addr) : Prop :=
  backing m a.toNat = some .ram ∨ backing m a.toNat = some .device

/-- What a program-memory word loads (R96): bits 23-8 into the register, bits 7-0 into PX. -/
def putPm (d : Dreg) (w : PWord) (s : State) : State :=
  { putDreg d (w.extractLsb' 8 16) s with px := w.extractLsb' 0 8 }

/-! ## Multifunction (46_multifunction.md) -/

/-- The two clauses name one register as destination (R422's table). -/
def collides (z : Dest) (k : Calc) (d : Dreg) : Prop :=
  z = .result ∧
    match k with
    | .alu _ _ _ => d = .ar
    | .mac _ _ _ _ => d = .mr0 ∨ d = .mr1 ∨ d = .mr2

/-- The same for a shifter clause (R422's table). -/
def shiftCollides (f : ShFn) (d : Dreg) : Prop :=
  match f with
  | .expHi | .expHix | .expLo => d = .se
  | .expAdj => False
  | _ => d = .sr0 ∨ d = .sr1

/-- The instructions whose two clauses name one register as destination (R422). -/
def twoWriters : Instr → Prop
  | .compDmRead _ z k d _ _ | .compPmRead z k d _ _ | .compMove z (some k) d _ => collides z k d
  | .shiftDmRead _ f _ d _ _ | .shiftPmRead f _ d _ _ | .shiftMove f _ d _ => shiftCollides f d
  | _ => False

/-- The generator and the I and M of an indirect data-memory read (R321, R430, R432). -/
def readsDm : Instr → Option (Dag × Fin 4 × Fin 4)
  | .dmRead g _ i m | .compDmRead g _ _ _ i m | .shiftDmRead g _ _ _ i m => some (g, i, m)
  | _ => none

/-- The generator and the I and M of an indirect data-memory write (R325, R326, R436, R438). -/
def writesDm : Instr → Option (Dag × Fin 4 × Fin 4)
  | .dmWrite g _ i m | .dmWriteImm g _ i m | .compDmWrite g _ _ _ i m | .shiftDmWrite g _ _ _ i m =>
    some (g, i, m)
  | _ => none

/-- The I and M of a program-memory read (R322, R431, R432). -/
def readsPm : Instr → Option (Fin 4 × Fin 4)
  | .pmRead _ i m | .compPmRead _ _ _ i m | .shiftPmRead _ _ _ i m => some (i, m)
  | _ => none

/-- The I and M of a program-memory write (R327, R437, R438). -/
def writesPm : Instr → Option (Fin 4 × Fin 4)
  | .pmWrite _ i m | .compPmWrite _ _ _ i m | .shiftPmWrite _ _ _ i m => some (i, m)
  | _ => none

/-- The I and M of the program-memory half and of the data-memory half of a dual read (R440, R441). -/
def readsBoth : Instr → Option ((Fin 4 × Fin 4) × (Fin 4 × Fin 4))
  | .dualRead _ _ pi pm di dm | .compDualRead _ _ _ pi pm di dm => some ((pi, pm), (di, dm))
  | _ => none

/-! ## Flow, interrupts and the whole machine -/

/-- The levels of the pins after MODIFY FLAG OUT (R358). -/
def newLevel (op : PinOp) (old : Bool) : Bool :=
  match op with
  | .keep => old
  | .toggle => !old
  | .reset => false
  | .set => true

/-- The event of a pin operation (R358, log 18). -/
def pinEvents (op : PinOp) (p : Pin) (old : Bool) : List Event :=
  if op = .keep then [] else [.pinWrite p (newLevel op old)]

/-- A mode bit after mode control (R400). -/
def newMode (op : ModeOp) (old : Bool) : Bool :=
  match op with
  | .keep => old
  | .disable => false
  | .enable => true

/-- A source that may interrupt (R462). -/
def Eligible (s : State) (q : IrqSource) : Prop :=
  q ∈ s.cfg.irqTable ∧ s.irqPending.getLsbD q.latch.val = true ∧ s.imask.getLsbD q.maskBit.val = true ∧
    (s.intsEn = true ∨ q.maskableByIntsEn = false)

/-- The fetch of the word `w` leaves `t` (R110, R112, R84): from an address that no store wrote; a device gives a
free word (log 21). -/
def Fetches (s : State) (w : PWord) (t : State) : Prop := s.pc.toNat ∉ s.pmDirty ∧ PmReads s.pc s w t

/-- The fixed bits of the word's type match (R121, R122, R144, R148, R180 items 1 and 2); the types whose pattern
the top byte settles have no others. -/
def fixedBitsMatch (w : PWord) : Bool :=
  match (w.extractLsb' 16 8).toNat with
  | 0x00 => w.extractLsb' 0 16 == 0
  | 0x02 => w.extractLsb' 12 4 == 0 || w.extractLsb' 4 12 == 0x800
  | 0x04 => w.extractLsb' 5 11 == 0 || w.extractLsb' 0 16 == 0x0040 || w.extractLsb' 0 16 == 0x0060
  | 0x05 => w.extractLsb' 0 16 == 0
  | 0x06 => w.extractLsb' 13 3 == 0 && w.extractLsb' 0 8 == 0
  | 0x07 => w.extractLsb' 11 5 == 0b00010 && w.extractLsb' 0 8 == 0
  | 0x08 => false
  | 0x09 => w.extractLsb' 5 11 == 0
  | 0x0A => w.extractLsb' 5 11 == 0
  | 0x0B => w.extractLsb' 8 8 == 0 && w.extractLsb' 5 1 == 0
  | 0x0C => w.extractLsb' 0 2 == 0
  | 0x0D => w.extractLsb' 12 4 == 0
  | 0x0E => w.extractLsb' 15 1 == 0 && w.extractLsb' 4 4 == 0
  | 0x0F => w.extractLsb' 15 1 == 0
  | 0x10 => w.extractLsb' 15 1 == 0
  | _ => true

/-- Type 9 (R131, R166, R180 item 3, R409): AMF 00000 is reserved with NOT CE only; else bits 7 to 4 are 0000, or a
constant (BO 01 or 11) with an ALU code that takes one, or 0001 and Yop 00 with a MAC code that squares, the last
two on `EXT_ALU_MAC` parts. -/
def type9Reserved (c : Config) (w : PWord) : Bool :=
  let amf := (w.extractLsb' 13 5).toNat
  let squares := !([5, 6, 9, 10, 13, 14].contains amf) && w.extractLsb' 11 2 == 0
  let takesConstant := !([0b10100, 0b10101, 0b11011, 0b11111].contains amf)
  if amf = 0 then w.extractLsb' 0 4 == 14
  else if w.extractLsb' 4 4 = 0 then false
  else if 16 ≤ amf then !(w.extractLsb' 4 1 == 1 && takesConstant && c.extAluMac)
  else !(w.extractLsb' 4 4 == 1 && squares && c.extAluMac)

/-- The register codes of R165 that are no destination: reserved ones, SSTAT, TOPPCSTACK. -/
def noDestination (rgp : BitVec 2) (reg : BitVec 4) : Bool :=
  if rgp = 0 then false
  else if rgp = 3 then reg == 2 || reg == 14 || reg == 15
  else decide (12 ≤ reg.toNat)

/-- The register codes of R165 that are no source: reserved ones, IFC, OWRCNTR, TOPPCSTACK. -/
def noSource (rgp : BitVec 2) (reg : BitVec 4) : Bool := rgp != 0 && decide (12 ≤ reg.toNat)

/-- Type 17 (R139, R395, R180 item 5): TOPPCSTACK goes with a register of the groups 00, 01 and 10 only. -/
def type17Reserved (w : PWord) : Bool :=
  let dg := w.extractLsb' 10 2
  let sg := w.extractLsb' 8 2
  let dr := w.extractLsb' 4 4
  let sr := w.extractLsb' 0 4
  if sg = 3 ∧ sr = 15 then dg == 3 || noDestination dg dr
  else if dg = 3 ∧ dr = 15 then sg == 3 || noSource sg sr
  else noDestination dg dr || noSource sg sr

/-- The field checks of R180 items 3 to 6, by the type of the top byte (R122). -/
def fieldsReserved (c : Config) (w : PWord) : Bool :=
  let top := (w.extractLsb' 16 8).toNat
  let xop001 := w.extractLsb' 8 3 == 1
  if top = 0x01 then !c.hasIo
  else if top = 0x02 then
    if w.extractLsb' 15 1 = 0 then !c.hasFl && w.extractLsb' 6 6 != 0
    else
      let dv := w.extractLsb' 0 4
      !(dv == 0 || (c.hasSlowIdle && (dv == 1 || dv == 2 || dv == 4 || dv == 8)))
  else if top = 0x04 then !c.extAluMac && w.extractLsb' 5 11 != 0
  else if top = 0x06 then w.extractLsb' 11 2 == 0 || w.extractLsb' 11 2 == 3
  else if top = 0x0D then type17Reserved w
  else if top = 0x0F then xop001 || w.extractLsb' 14 1 == 1
  else if top = 0x0E ∨ (0x10 ≤ top ∧ top ≤ 0x13) then xop001
  else if 0x20 ≤ top ∧ top ≤ 0x27 then type9Reserved c w
  else if 0x30 ≤ top ∧ top ≤ 0x3F then
    w.extractLsb' 18 2 == 0 || noDestination (w.extractLsb' 18 2) (w.extractLsb' 0 4)
  else if 0x80 ≤ top ∧ top ≤ 0x8F then noDestination (w.extractLsb' 18 2) (w.extractLsb' 0 4)
  else if 0x90 ≤ top ∧ top ≤ 0x9F then noSource (w.extractLsb' 18 2) (w.extractLsb' 0 4)
  else false

/-- The reserved words of a part (R180 items 1 to 6). -/
def isReserved (c : Config) (w : PWord) : Bool := !fixedBitsMatch w || fieldsReserved c w

/-- The condition of a conditional instruction (R160, R200, R352). -/
def condOf : Instr → Option Cond
  | .addXY _ _ _ c | .addXK _ _ _ c | .addcXY _ _ _ c | .addcXK _ _ _ c | .subXY _ _ _ c | .subXK _ _ _ c
  | .subbXY _ _ _ c | .subbXK _ _ _ c | .rsubXY _ _ _ c | .rsubXK _ _ _ c | .rsubbXY _ _ _ c
  | .rsubbXK _ _ _ c | .andXY _ _ _ c | .andXK _ _ _ c | .orXY _ _ _ c | .orXK _ _ _ c | .xorXY _ _ _ c
  | .xorXK _ _ _ c | .tstBit _ _ _ c | .setBit _ _ _ c | .clrBit _ _ _ c | .tglBit _ _ _ c | .passY _ _ c
  | .passZero _ c | .passX _ _ c | .passOne _ c | .passMinusOne _ c | .passK _ _ c | .passKInc _ _ c
  | .passKDec _ _ c | .negX _ _ c | .negY _ _ c | .notX _ _ c | .notY _ _ c | .absX _ _ c | .incY _ _ c
  | .decY _ _ c => some c
  | .mulSS _ _ _ c | .mulSU _ _ _ c | .mulUS _ _ _ c | .mulUU _ _ _ c | .mulRND _ _ _ c | .macSS _ _ _ c
  | .macSU _ _ _ c | .macUS _ _ _ c | .macUU _ _ _ c | .macRND _ _ _ c | .msubSS _ _ _ c | .msubSU _ _ _ c
  | .msubUS _ _ _ c | .msubUU _ _ _ c | .msubRND _ _ _ c | .sqSS _ _ c | .sqUU _ _ c | .sqRND _ _ c
  | .macSqSS _ _ c | .macSqUU _ _ c | .macSqRND _ _ c | .msubSqSS _ _ c | .msubSqUU _ _ c
  | .msubSqRND _ _ c | .clearMR _ c | .transferMR _ c | .transferMRRnd _ c => some c
  | .lshiftHi _ c | .lshiftHiOr _ c | .lshiftLo _ c | .lshiftLoOr _ c | .ashiftHi _ c | .ashiftHiOr _ c
  | .ashiftLo _ c | .ashiftLoOr _ c | .normHi _ c | .normHiOr _ c | .normLo _ c | .normLoOr _ c
  | .expHi _ c | .expHix _ c | .expLo _ c | .expAdj _ c => some c
  | .jump _ c | .jumpInd _ c | .call _ c | .callInd _ c | .flagOut _ _ _ _ c | .rts c | .rti c => some c
  | _ => none

/-- The instructions that R373 lets end any loop: no transfer, no DO UNTIL, no IDLE, no pop of the PC or the loop
stack, no TOPPCSTACK form, no write to the counter, no test of NOT CE. -/
def endsAnyLoop (i : Instr) : Bool :=
  (match i with
    | .jump .. | .jumpInd .. | .call .. | .callInd .. | .jumpFlagIn .. | .callFlagIn .. | .rts .. | .rti .. => false
    | .doUntil .. | .idle | .idleN _ | .regFromTop _ | .topFromReg _ => false
    | .stackControl pp lp cp _ => !(pp || lp || cp)
    | .regMove d _ | .loadReg d _ | .dmReadDirect d _ => !(d == .reg .cntr || d == .owrcntr)
    | _ => true) && condOf i != some .notCe

/-- `n` executions of NOP, one after the other. -/
def nops : Nat → State → Host.Outcome State Fault Refusal
  | 0, s => .next s
  | n + 1, s =>
    match exec .nop s with
    | .next t => nops n t
    | .fault f => .fault f
    | .refused r => .refused r

/-- The ALU instructions that set AZ, AN, AV and AC (R38). -/
def setsAluFlags : Instr → Bool
  | .addXY .. | .addXK .. | .addcXY .. | .addcXK .. | .subXY .. | .subXK .. | .subbXY .. | .subbXK ..
  | .rsubXY .. | .rsubXK .. | .rsubbXY .. | .rsubbXK .. | .andXY .. | .andXK .. | .orXY .. | .orXK ..
  | .xorXY .. | .xorXK .. | .tstBit .. | .setBit .. | .clrBit .. | .tglBit .. | .passY .. | .passZero ..
  | .passX .. | .passOne .. | .passMinusOne .. | .passK .. | .passKInc .. | .passKDec .. | .negX ..
  | .negY .. | .notX .. | .notY .. | .absX .. | .incY .. | .decY .. | .noneAlu .. => true
  | .compDmRead _ _ (.alu _ _ _) _ _ _ | .compPmRead _ (.alu _ _ _) _ _ _ => true
  | .compMove _ (some (.alu _ _ _)) _ _ | .compDmWrite _ _ (.alu _ _ _) _ _ _ => true
  | .compPmWrite _ (.alu _ _ _) _ _ _ | .compDualRead (.alu _ _ _) _ _ _ _ _ _ => true
  | _ => false

/-- The instructions that set AS: ABS (R38). -/
def setsAs : Instr → Bool
  | .absX .. | .noneAlu .abs _ _ => true
  | .compDmRead _ _ (.alu .abs _ _) _ _ _ | .compPmRead _ (.alu .abs _ _) _ _ _ => true
  | .compMove _ (some (.alu .abs _ _)) _ _ | .compDmWrite _ _ (.alu .abs _ _) _ _ _ => true
  | .compPmWrite _ (.alu .abs _ _) _ _ _ | .compDualRead (.alu .abs _ _) _ _ _ _ _ _ => true
  | _ => false

/-- The instructions that set AQ: DIVS and DIVQ (R38). -/
def setsAq : Instr → Bool
  | .divs .. | .divq .. => true
  | _ => false

/-- The instructions that set MV: every MAC operation, not SAT MR (R38). -/
def setsMv : Instr → Bool
  | .mulSS .. | .mulSU .. | .mulUS .. | .mulUU .. | .mulRND .. | .macSS .. | .macSU .. | .macUS ..
  | .macUU .. | .macRND .. | .msubSS .. | .msubSU .. | .msubUS .. | .msubUU .. | .msubRND .. | .sqSS ..
  | .sqUU .. | .sqRND .. | .macSqSS .. | .macSqUU .. | .macSqRND .. | .msubSqSS .. | .msubSqUU ..
  | .msubSqRND .. | .clearMR .. | .transferMR .. | .transferMRRnd .. => true
  | .compDmRead _ _ (.mac _ _ _ _) _ _ _ | .compPmRead _ (.mac _ _ _ _) _ _ _ => true
  | .compMove _ (some (.mac _ _ _ _)) _ _ | .compDmWrite _ _ (.mac _ _ _ _) _ _ _ => true
  | .compPmWrite _ (.mac _ _ _ _) _ _ _ | .compDualRead (.mac _ _ _ _) _ _ _ _ _ _ => true
  | _ => false

/-- The instructions that set SS: EXP (HI) and EXP (HIX) (R38). -/
def setsSs : Instr → Bool
  | .expHi .. | .expHix .. => true
  | .shiftDmRead _ .expHi _ _ _ _ | .shiftDmRead _ .expHix _ _ _ _ => true
  | .shiftPmRead .expHi _ _ _ _ | .shiftPmRead .expHix _ _ _ _ => true
  | .shiftMove .expHi _ _ _ | .shiftMove .expHix _ _ _ => true
  | .shiftDmWrite _ .expHi _ _ _ _ | .shiftDmWrite _ .expHix _ _ _ _ => true
  | .shiftPmWrite .expHi _ _ _ _ | .shiftPmWrite .expHix _ _ _ _ => true
  | _ => false

/-- The instructions that load the whole of ASTAT (R37): a move into it, TOPPCSTACK's among them, POP STS and RTI. -/
def loadsAstat : Instr → Bool
  | .regMove (.reg .astat) _ | .loadReg (.reg .astat) _ | .dmReadDirect (.reg .astat) _ => true
  | .regFromTop .astat | .stackControl _ _ _ .pop | .rti .. => true
  | _ => false

/-- What holds of every state a run can reach, and of more: the memories are in their canonical form
(log 4), PM_DIRTY is a set, no stack is deeper than its hardware (R32 to R35), IMASK, ICNTL and the saved
masks are as wide as the part has them (R46, R47), INTS_EN is 1 where no instruction changes it (R50), and
a delayed pop has something to pop (R396). -/
def StateInv (s : State) : Prop :=
  Memory.wf s.pm = true ∧ Memory.wf s.dm = true ∧ s.pmDirty.Pairwise (· < ·) ∧
  s.pcStack.length ≤ 16 ∧ s.loopStack.length ≤ 4 ∧
  s.cntrStack.length ≤ s.cfg.cntrStackDepth ∧ s.statusStack.length ≤ s.cfg.statusStackDepth ∧
  (∀ k, s.cfg.imaskBits ≤ k → s.imask.getLsbD k = false) ∧
  (∀ k, s.cfg.icntlBits ≤ k → s.icntl.getLsbD k = false) ∧
  (∀ e ∈ s.statusStack, ∀ k, s.cfg.imaskBits ≤ k → e.imask.getLsbD k = false) ∧
  (s.cfg.extAluMac = false → s.intsEn = true) ∧
  (s.pcPopPending = true → s.pcStack ≠ [])

end Sys2Proof.Spec

open Sys2Proof Sys2Proof.Machine Sys2Proof.Spec

/-! ## ALU -/

/-- ADD and ADD with CARRY (R205, R206), register and constant forms: the sum, its flags, AR or AF; with the
saturation of log 27. -/
def Obligations.AddStoresTheSum : Prop :=
  ∀ (z : Dest) (x : AluX) (c : Cond),
    (∀ y, Runs (.addXY z x y c) c (aluEff .add z (xopAlu x) (yopAlu y))) ∧
    (∀ k, Runs (.addXK z x k c) c (aluEff .add z (xopAlu x) fun _ => constVal k)) ∧
    (∀ y, Runs (.addcXY z x y c) c (aluEff .addC z (xopAlu x) (yopAlu y))) ∧
    (∀ k, Runs (.addcXK z x k c) c (aluEff .addC z (xopAlu x) fun _ => constVal k))

/-- SUBTRACT X-Y and Y-X, with and without borrow (R207 to R210), register and constant forms. -/
def Obligations.SubtractStoresTheDifference : Prop :=
  ∀ (z : Dest) (x : AluX) (c : Cond),
    (∀ y, Runs (.subXY z x y c) c (aluEff .sub z (xopAlu x) (yopAlu y)) ∧
      Runs (.subbXY z x y c) c (aluEff .subC z (xopAlu x) (yopAlu y)) ∧
      Runs (.rsubXY z x y c) c (aluEff .rsub z (xopAlu x) (yopAlu y)) ∧
      Runs (.rsubbXY z x y c) c (aluEff .rsubC z (xopAlu x) (yopAlu y))) ∧
    (∀ k, Runs (.subXK z x k c) c (aluEff .sub z (xopAlu x) fun _ => constVal k) ∧
      Runs (.subbXK z x k c) c (aluEff .subC z (xopAlu x) fun _ => constVal k) ∧
      Runs (.rsubXK z x k c) c (aluEff .rsub z (xopAlu x) fun _ => constVal k) ∧
      Runs (.rsubbXK z x k c) c (aluEff .rsubC z (xopAlu x) fun _ => constVal k))

/-- AND, OR, XOR (R211 to R213), register and constant forms. -/
def Obligations.LogicStoresTheBits : Prop :=
  ∀ (z : Dest) (x : AluX) (c : Cond),
    (∀ y, Runs (.andXY z x y c) c (aluEff .and z (xopAlu x) (yopAlu y)) ∧
      Runs (.orXY z x y c) c (aluEff .or z (xopAlu x) (yopAlu y)) ∧
      Runs (.xorXY z x y c) c (aluEff .xor z (xopAlu x) (yopAlu y))) ∧
    (∀ k, Runs (.andXK z x k c) c (aluEff .and z (xopAlu x) fun _ => constVal k) ∧
      Runs (.orXK z x k c) c (aluEff .or z (xopAlu x) fun _ => constVal k) ∧
      Runs (.xorXK z x k c) c (aluEff .xor z (xopAlu x) fun _ => constVal k))

/-- TSTBIT, SETBIT, CLRBIT, TGLBIT (R214 to R217), told bit by bit: every bit of the result but the selected one is
0, or that of xop; AV and AC come out 0. -/
def Obligations.BitOperationsChangeOneBit : Prop :=
  ∀ (z : Dest) (n : Fin 16) (x : AluX) (c : Cond) (s : State), CanAdvance s → CanTest c s →
    ∃ t set clr tgl : Word,
      (∀ k, k < 16 → t.getLsbD k = (decide (k = n.val) && (xopAlu x s).getLsbD k)) ∧
      (∀ k, k < 16 → set.getLsbD k = (decide (k = n.val) || (xopAlu x s).getLsbD k)) ∧
      (∀ k, k < 16 → clr.getLsbD k = (!decide (k = n.val) && (xopAlu x s).getLsbD k)) ∧
      (∀ k, k < 16 → tgl.getLsbD k = (decide (k = n.val) ^^ (xopAlu x s).getLsbD k)) ∧
      exec (.tstBit z n x c) s = .next (advance s
        (if condTrue c s then putAlu z (plainOut t) (tested c s) else tested c s)) ∧
      exec (.setBit z n x c) s = .next (advance s
        (if condTrue c s then putAlu z (plainOut set) (tested c s) else tested c s)) ∧
      exec (.clrBit z n x c) s = .next (advance s
        (if condTrue c s then putAlu z (plainOut clr) (tested c s) else tested c s)) ∧
      exec (.tglBit z n x c) s = .next (advance s
        (if condTrue c s then putAlu z (plainOut tgl) (tested c s) else tested c s))

/-- PASS of a yop, 0, an xop, 1 and -1 (R218 to R220): the operand, AV and AC 0. -/
def Obligations.PassMovesItsOperand : Prop :=
  ∀ (z : Dest) (c : Cond),
    (∀ y, Runs (.passY z y c) c fun s => putAlu z (plainOut (yopAlu y s)) s) ∧
    (∀ x, Runs (.passX z x c) c fun s => putAlu z (plainOut (xopAlu x s)) s) ∧
    Runs (.passZero z c) c (fun s => putAlu z (plainOut 0) s) ∧
    Runs (.passOne z c) c (fun s => putAlu z (plainOut 1) s) ∧
    Runs (.passMinusOne z c) c (fun s => putAlu z (plainOut 0xFFFF) s)

/-- PASS constant (R221): AF or AR gets the constant (plus or minus 1). Where that is -1, 0 or 1 the flags are those
of the ALU function (log 11); otherwise AZ, AN, AV and AC are free, the other flags stay, and with AR saturation AR
may also be one of the two saturation values. -/
def Obligations.PassConstantStoresTheConstant : Prop :=
  ∀ (z : Dest) (k : Konst) (c : Cond) (s : State) (i : Instr) (f : AluFn), CanAdvance s → CanTest c s →
    ((i = .passK z k c ∧ f = .passY) ∨ (i = .passKInc z k c ∧ f = .incY) ∨
      (i = .passKDec z k c ∧ f = .decY)) →
    let o := aluOut f 0 (constVal k) false
    ∃ t, exec i s = .next (advance s t) ∧
      (condTrue c s = false → t = tested c s) ∧
      (condTrue c s = true → o.r = 0xFFFF ∨ o.r = 0 ∨ o.r = 1 → t = putAlu z o (tested c s)) ∧
      (condTrue c s = true → ¬ (o.r = 0xFFFF ∨ o.r = 0 ∨ o.r = 1) →
        ∃ (a : BitVec 8) (v : Word),
          a.extractLsb' 4 4 = s.astat.extractLsb' 4 4 ∧
          (v = o.r ∨ (z = .result ∧ s.mstat.getLsbD 3 = true ∧ (v = 0x7FFF ∨ v = 0x8000))) ∧
          t = setActive
            (match z with
            | .result => { active s with ar := v }
            | .feedback => { active s with af := v })
            { tested c s with astat := a, draws := s.draws + 1 })

/-- NEGATE, NOT, ABS, INCREMENT and DECREMENT (R222 to R228). -/
def Obligations.OneOperandFunctions : Prop :=
  ∀ (z : Dest) (c : Cond),
    (∀ x, Runs (.negX z x c) c (fun s => putAlu z (diffOut 0 (xopAlu x s) true) s) ∧
      Runs (.notX z x c) c (aluEff .notX z (xopAlu x) none16) ∧
      Runs (.absX z x c) c (aluEff .abs z (xopAlu x) none16)) ∧
    (∀ y, Runs (.negY z y c) c (aluEff .negY z none16 (yopAlu y)) ∧
      Runs (.notY z y c) c (aluEff .notY z none16 (yopAlu y)) ∧
      Runs (.incY z y c) c (aluEff .incY z none16 (yopAlu y)) ∧
      Runs (.decY z y c) c (aluEff .decY z none16 (yopAlu y)))

/-- DIVS and DIVQ (R235, R236): one step of the division on AF and AY0 as one number; AQ, no other flag. The
step itself is the spec's decision D22 (log 27). -/
def Obligations.DivideStepsShiftTheDividend : Prop :=
  (∀ (y : AluY) (x : AluX), RunsPlain (.divs y x) fun s =>
    let q := (xopAlu x s).msb != (yopAlu y s).msb
    divided (yopAlu y s ++ (active s).ay0) q q s) ∧
  (∀ (x : AluX), RunsPlain (.divq x) fun s =>
    let t : Word :=
      if s.astat.getLsbD 5 then (active s).af + xopAlu x s else (active s).af - xopAlu x s
    let q := t.msb != (xopAlu x s).msb
    divided (t ++ (active s).ay0) (!q) q s)

/-- NONE = <ALU> (R240): the flags of the function, and no register. -/
def Obligations.GenerateStatusWritesFlagsOnly : Prop :=
  ∀ (f : AluFn) (x : AluX) (y : AluY), RunsPlain (.noneAlu f x y) fun s =>
    { s with astat := aluFlags (aluOut f (xopAlu x s) (yopAlu y s) (s.astat.getLsbD 3)) s }

/-! ## MAC -/

/-- MULTIPLY and its squaring form (R256, R259). A multiply by yop = 0 is the clear of R260 in every format; that
(RND) rounds nothing there follows R260 against the formulas of R252 and R255 (log 30). -/
def Obligations.MultiplyStoresTheProduct : Prop :=
  ∀ (z : Dest) (x : MacX) (c : Cond),
    (∀ y, Runs (.mulSS z x y c) c (mulEff .ss z x y) ∧
      Runs (.mulSU z x y c) c (mulEff .su z x y) ∧
      Runs (.mulUS z x y c) c (mulEff .us z x y) ∧
      Runs (.mulUU z x y c) c (mulEff .uu z x y) ∧
      Runs (.mulRND z x y c) c (mulEff .rnd z x y)) ∧
    Runs (.sqSS z x c) c (macEff .mul .ss z (xopMac x) (xopMac x)) ∧
    Runs (.sqUU z x c) c (macEff .mul .uu z (xopMac x) (xopMac x)) ∧
    Runs (.sqRND z x c) c (macEff .mul .rnd z (xopMac x) (xopMac x))

/-- MULTIPLY / ACCUMULATE and MULTIPLY / SUBTRACT and their squaring forms (R257 to R259). -/
def Obligations.AccumulateAddsTheProduct : Prop :=
  ∀ (z : Dest) (x : MacX) (c : Cond),
    (∀ y, Runs (.macSS z x y c) c (macEff .acc .ss z (xopMac x) (yopMac y)) ∧
      Runs (.macSU z x y c) c (macEff .acc .su z (xopMac x) (yopMac y)) ∧
      Runs (.macUS z x y c) c (macEff .acc .us z (xopMac x) (yopMac y)) ∧
      Runs (.macUU z x y c) c (macEff .acc .uu z (xopMac x) (yopMac y)) ∧
      Runs (.macRND z x y c) c (macEff .acc .rnd z (xopMac x) (yopMac y)) ∧
      Runs (.msubSS z x y c) c (macEff .sub .ss z (xopMac x) (yopMac y)) ∧
      Runs (.msubSU z x y c) c (macEff .sub .su z (xopMac x) (yopMac y)) ∧
      Runs (.msubUS z x y c) c (macEff .sub .us z (xopMac x) (yopMac y)) ∧
      Runs (.msubUU z x y c) c (macEff .sub .uu z (xopMac x) (yopMac y)) ∧
      Runs (.msubRND z x y c) c (macEff .sub .rnd z (xopMac x) (yopMac y))) ∧
    Runs (.macSqSS z x c) c (macEff .acc .ss z (xopMac x) (xopMac x)) ∧
    Runs (.macSqUU z x c) c (macEff .acc .uu z (xopMac x) (xopMac x)) ∧
    Runs (.macSqRND z x c) c (macEff .acc .rnd z (xopMac x) (xopMac x)) ∧
    Runs (.msubSqSS z x c) c (macEff .sub .ss z (xopMac x) (xopMac x)) ∧
    Runs (.msubSqUU z x c) c (macEff .sub .uu z (xopMac x) (xopMac x)) ∧
    Runs (.msubSqRND z x c) c (macEff .sub .rnd z (xopMac x) (xopMac x))

/-- CLEAR and TRANSFER MR (R260, R261). -/
def Obligations.ClearAndTransferMR : Prop :=
  ∀ (z : Dest) (c : Cond),
    Runs (.clearMR z c) c (fun s => putMac z 0 false s) ∧
    Runs (.transferMR z c) c (fun s => putMac z (mrOf s) (mvOut (mrOf s)) s) ∧
    Runs (.transferMRRnd z c) c (fun s =>
      let res := BitVec.ofInt 40 (rounded (s.cfg.biasedRnd && s.cfg.extAluMac) (mrOf s).toInt)
      putMac z res (mvOut res) s)

/-- SAT MR (R270): the word 0x050000; with MV set MR becomes the 32-bit extreme of its sign, else nothing
happens; no flag changes. -/
def Obligations.SaturateMR : Prop :=
  (∀ cfg, decode cfg 0x050000 = some .satMR) ∧
  RunsPlain .satMR fun s =>
    if s.astat.getLsbD 6 then
      (if (active s).mr2.getLsbD 7 then setActive { active s with mr2 := 0xFF, mr1 := 0x8000, mr0 := 0 } s
      else setActive { active s with mr2 := 0, mr1 := 0x7FFF, mr0 := 0xFFFF } s)
    else s

/-! ## Shifter -/

/-- LSHIFT and ASHIFT (R285, R286): by SE; zeros, or the sign, from the left. -/
def Obligations.ShiftsMoveTheBits : Prop :=
  ∀ (x : ShX) (c : Cond),
    ShRuns (.lshiftHi x c) .lshiftHi x c ∧ ShRuns (.lshiftHiOr x c) .lshiftHiOr x c ∧
    ShRuns (.lshiftLo x c) .lshiftLo x c ∧ ShRuns (.lshiftLoOr x c) .lshiftLoOr x c ∧
    ShRuns (.ashiftHi x c) .ashiftHi x c ∧ ShRuns (.ashiftHiOr x c) .ashiftHiOr x c ∧
    ShRuns (.ashiftLo x c) .ashiftLo x c ∧ ShRuns (.ashiftLoOr x c) .ashiftLoOr x c

/-- NORM (R287): by minus SE; (HI) fills with AC, which the spec decides for every SE > 0 (D23, log 27). -/
def Obligations.NormalizeShiftsByMinusSE : Prop :=
  ∀ (x : ShX) (c : Cond),
    ShRuns (.normHi x c) .normHi x c ∧ ShRuns (.normHiOr x c) .normHiOr x c ∧
    ShRuns (.normLo x c) .normLo x c ∧ ShRuns (.normLoOr x c) .normLoOr x c

/-- EXP (HI), (HIX), (LO) and EXPADJ (R290 to R292, R295): SE, SS and SB. -/
def Obligations.ExponentDetection : Prop :=
  ∀ (x : ShX) (c : Cond),
    ShRuns (.expHi x c) .expHi x c ∧ ShRuns (.expHix x c) .expHix x c ∧
    ShRuns (.expLo x c) .expLo x c ∧ ShRuns (.expAdj x c) .expAdj x c

/-- The shift-immediate instructions (R300, R301). -/
def Obligations.ShiftImmediateShiftsByItsConstant : Prop :=
  ∀ (x : ShX) (e : BitVec 8),
    ImmRuns (.lshiftImmHi x e) x (e.toInt + 16) false false ∧
    ImmRuns (.lshiftImmHiOr x e) x (e.toInt + 16) false true ∧
    ImmRuns (.lshiftImmLo x e) x e.toInt false false ∧
    ImmRuns (.lshiftImmLoOr x e) x e.toInt false true ∧
    ImmRuns (.ashiftImmHi x e) x (e.toInt + 16) true false ∧
    ImmRuns (.ashiftImmHiOr x e) x (e.toInt + 16) true true ∧
    ImmRuns (.ashiftImmLo x e) x e.toInt true false ∧
    ImmRuns (.ashiftImmLoOr x e) x e.toInt true true

/-! ## Moves -/

/-- `reg = reg` (R313, R311, R318): every source and every destination, the counter, the ports and IFC among
them. Reading CNTR after its count expired is the fault UninitRead(CNTR) of R318; a CNTR that nothing has written
reads as the value it holds (log 12). -/
def Obligations.RegisterMoveCopies : Prop :=
  (∀ (d : DstReg) (r : SrcReg) (s : State), CanAdvance s → CanRead r s → CanWrite d s →
    ∃ v u t, SrcReads r s v u ∧ DstWrites d v u t ∧ exec (.regMove d r) s = .next (advance s t)) ∧
  (∀ (d : DstReg) (s : State), CanAdvance s → CanWrite d s → s.cntrValid = false →
    s.cntrExpired = true →
    exec (.regMove d (.reg .cntr)) s = .fault .uninitCntr)

/-- Load immediate (R315, R316): the 16-bit constant, or the 14-bit one with its sign, into every destination of R314.
That the force bits of an IFC write act after its clear bits is the model's (R463, log 8). -/
def Obligations.LoadImmediateLoads : Prop :=
  (∀ (d : Dreg) (v : Word), RunsPlain (.loadDreg d v) (putDreg d v)) ∧
  (∀ (d : DstReg) (v : BitVec 14) (s : State), CanAdvance s → CanWrite d s →
    ∃ t, DstWrites d (BitVec.ofInt 16 v.toInt) s t ∧ exec (.loadReg d v) s = .next (advance s t))

/-- A write to CNTR with a valid count and a full counter stack is the fault StackOverflow(counter) (R318, R454),
which leaves CSO set in the recorded state and changes nothing else; OWRCNTR never pushes. -/
def Obligations.CounterWriteOverflows : Prop :=
  ∀ (v : BitVec 14) (r : SrcReg) (s : State), CanAdvance s → (atLoopEnd s = true → endsOnCe s = false) →
    s.cntrValid = true → s.cfg.cntrStackDepth ≤ s.cntrStack.length →
    exec (.loadReg (.reg .cntr) v) s = .fault (.stackOverflow .counter) ∧
    exec (.regMove (.reg .cntr) r) s = .fault (.stackOverflow .counter) ∧
    (∀ a w u, DmReads a s w u → exec (.dmReadDirect (.reg .cntr) a) s = .fault (.stackOverflow .counter)) ∧
    exec (.loadReg .owrcntr v) s = .next (advance s { s with cntr := v }) ∧
    recordFault (.stackOverflow .counter) s = { s with cso := true }

/-- Direct data-memory read and write (R320, R324), of every register of R311; an expired CNTR is not stored (R318), one that
nothing has written is (log 12). That the force bits of an IFC write act
after its clear bits is the model's (R463, log 8). -/
def Obligations.DirectMemoryMoves : Prop :=
  (∀ (d : DstReg) (a : Addr) (s u : State) (v : Word), CanAdvance s → CanWrite d s → DmReads a s v u →
    ∃ t, DstWrites d v u t ∧ exec (.dmReadDirect d a) s = .next (advance s t)) ∧
  (∀ (a : Addr) (r : SrcReg) (s : State), CanAdvance s → CanRead r s → Writable s.cfg.dmMap a →
    ∃ v u t, SrcReads r s v u ∧ DmStores a v u t ∧ exec (.dmWriteDirect a r) s = .next (advance s t)) ∧
  (∀ (a : Addr) (s : State), CanAdvance s → s.cntrValid = false → s.cntrExpired = true →
    exec (.dmWriteDirect a (.reg .cntr)) s = .fault .uninitCntr)

/-- Indirect reads of data and program memory (R321, R322): the address `dagAddr` puts out, the word, PX for
program memory, and the post-modified I. -/
def Obligations.IndirectReadsLoad : Prop :=
  (∀ (g : Dag) (d : Dreg) (i m : Fin 4) (s u : State) (v : Word) (a : Addr), CanAdvance s →
    NextI g i m s a → DmReads (dagAddr g i s) s v u →
    exec (.dmRead g d i m) s = .next (advance s (putI g i a (putDreg d v u)))) ∧
  (∀ (d : Dreg) (i m : Fin 4) (s u : State) (w : PWord) (a : Addr), CanAdvance s →
    NextI .two i m s a → PmReads (dagAddr .two i s) s w u →
    exec (.pmRead d i m) s = .next (advance s (putI .two i a (putPm d w u))))

/-- Indirect writes of data memory, of a register or of a constant (R325, R326), and of program memory (R327, R97):
the register above PX; the address joins PM_DIRTY (R85). -/
def Obligations.IndirectWritesStore : Prop :=
  (∀ (g : Dag) (i m : Fin 4) (s : State) (a : Addr), CanAdvance s →
    NextI g i m s a → Writable s.cfg.dmMap (dagAddr g i s) →
    (∀ r : Dreg, ∃ t, DmStores (dagAddr g i s) (dregVal r s) s t ∧
      exec (.dmWrite g r i m) s = .next (advance s (putI g i a t))) ∧
    (∀ v : Word, ∃ t, DmStores (dagAddr g i s) v s t ∧
      exec (.dmWriteImm g v i m) s = .next (advance s (putI g i a t)))) ∧
  (∀ (r : Dreg) (i m : Fin 4) (s : State) (a : Addr), CanAdvance s →
    NextI .two i m s a → Writable s.cfg.pmMap (dagAddr .two i s) →
    ∃ t, PmStores (dagAddr .two i s) (dregVal r s ++ s.px) s t ∧
      exec (.pmWrite r i m) s = .next (advance s (putI .two i a t)))

/-- I/O reads and writes (R330, R331): a free value with its event, and an event; no storage. -/
def Obligations.IoMovesTalkToDevices : Prop :=
  (∀ (d : Dreg) (a : IoAddr), RunsPlain (.ioRead d a) fun s =>
    let v : Word := (Config.oracle s.draws).setWidth 16
    putDreg d v { s with draws := s.draws + 1,
                         events := .devRead .io (a.setWidth 14) (v.setWidth 24) :: s.events }) ∧
  (∀ (d : Dreg) (a : IoAddr), RunsPlain (.ioWrite a d) fun s =>
    { s with events := .devWrite .io (a.setWidth 14) ((dregVal d s).setWidth 24) :: s.events })

/-- The address generators (R29, R92, R93, R95): DAG 1 has the registers 0 to 3, DAG 2 those from 4 on; the post-modify is linear or circular and refuses what the spec's
modulus rule (GK26, log 27) does not cover; the address is bit-reversed from DAG 1 in that mode only; MODIFY
(R405) is the post-modify alone. -/
def Obligations.AddressGenerators : Prop :=
  ∀ (g : Dag) (i m : Fin 4) (s : State),
    (dagIndex .one i).val = i.val ∧ (dagIndex .two i).val = i.val + 4 ∧
    (∀ k, k < 14 → (dagAddr g i s).getLsbD k =
      (s.ireg.get (dagIndex g i)).getLsbD
        (if g = .one ∧ s.mstat.getLsbD 1 = true then 13 - k else k)) ∧
    (∀ a, modifiedI g i m s = .ok a ↔ NextI g i m s a) ∧
    (CanAdvance s → (∀ a, NextI g i m s a →
      exec (.modify g i m) s = .next (advance s (putI g i a s))) ∧
      ((¬ ∃ a, NextI g i m s a) → exec (.modify g i m) s = .fault .circular))

/-- The faults of the memory accesses (R82 to R85, R93, R452), direct and indirect, alone and beside a computation: no
post-modified I, no memory there, a word never written, a write to ROM. -/
def Obligations.MemoryFaults : Prop :=
  (∀ (r : SrcReg) (a : Addr) (s : State), CanAdvance s → CanRead r s →
    backing s.cfg.dmMap a.toNat = none ∨ backing s.cfg.dmMap a.toNat = some .rom →
      exec (.dmWriteDirect a r) s = .fault (.unmappedAccess .dm a)) ∧
  (∀ (d : DstReg) (a : Addr) (s : State), CanAdvance s →
    (d = .reg .cntr ∨ d = .owrcntr → atLoopEnd s = true → endsOnCe s = false) →
    (backing s.cfg.dmMap a.toNat = none → exec (.dmReadDirect d a) s = .fault (.unmappedAccess .dm a)) ∧
    (backing s.cfg.dmMap a.toNat = some .ram ∨ backing s.cfg.dmMap a.toNat = some .rom →
      Memory.readDm s.dm a = none → exec (.dmReadDirect d a) s = .fault (.uninitRead .dm a))) ∧
  (∀ (j : Instr) (g : Dag) (i m : Fin 4) (s : State), CanAdvance s → ¬ twoWriters j →
    readsDm j = some (g, i, m) ∨ writesDm j = some (g, i, m) → let a := dagAddr g i s
    ((¬ ∃ n, NextI g i m s n) → exec j s = .fault .circular) ∧
    ((∃ n, NextI g i m s n) →
      (backing s.cfg.dmMap a.toNat = none → exec j s = .fault (.unmappedAccess .dm a)) ∧
      (backing s.cfg.dmMap a.toNat = some .rom → writesDm j = some (g, i, m) →
        exec j s = .fault (.unmappedAccess .dm a)) ∧
      (backing s.cfg.dmMap a.toNat = some .ram ∨ backing s.cfg.dmMap a.toNat = some .rom →
        Memory.readDm s.dm a = none → readsDm j = some (g, i, m) → exec j s = .fault (.uninitRead .dm a)))) ∧
  (∀ (j : Instr) (i m : Fin 4) (s : State), CanAdvance s → ¬ twoWriters j →
    readsPm j = some (i, m) ∨ writesPm j = some (i, m) → let a := dagAddr .two i s
    ((¬ ∃ n, NextI .two i m s n) → exec j s = .fault .circular) ∧
    ((∃ n, NextI .two i m s n) →
      (backing s.cfg.pmMap a.toNat = none → exec j s = .fault (.unmappedAccess .pm a)) ∧
      (backing s.cfg.pmMap a.toNat = some .rom → writesPm j = some (i, m) →
        exec j s = .fault (.unmappedAccess .pm a)) ∧
      (backing s.cfg.pmMap a.toNat = some .ram ∨ backing s.cfg.pmMap a.toNat = some .rom →
        Memory.readPm s.pm a = none → readsPm j = some (i, m) → exec j s = .fault (.uninitRead .pm a)))) ∧
  (∀ (j : Instr) (pi pm di dm : Fin 4) (s : State), CanAdvance s → readsBoth j = some ((pi, pm), (di, dm)) →
    ((¬ ∃ n, NextI .two pi pm s n) ∨ (¬ ∃ n, NextI .one di dm s n) → exec j s = .fault .circular) ∧
    ((∃ n, NextI .two pi pm s n) → (∃ n, NextI .one di dm s n) →
      (backing s.cfg.pmMap (dagAddr .two pi s).toNat = none →
        exec j s = .fault (.unmappedAccess .pm (dagAddr .two pi s))) ∧
      (backing s.cfg.pmMap (dagAddr .two pi s).toNat = some .ram ∨
          backing s.cfg.pmMap (dagAddr .two pi s).toNat = some .rom →
        Memory.readPm s.pm (dagAddr .two pi s) = none → exec j s = .fault (.uninitRead .pm (dagAddr .two pi s))) ∧
      (∀ w t, PmReads (dagAddr .two pi s) s w t →
        (backing s.cfg.dmMap (dagAddr .one di s).toNat = none →
          exec j s = .fault (.unmappedAccess .dm (dagAddr .one di s))) ∧
        (backing s.cfg.dmMap (dagAddr .one di s).toNat = some .ram ∨
            backing s.cfg.dmMap (dagAddr .one di s).toNat = some .rom →
          Memory.readDm s.dm (dagAddr .one di s) = none → exec j s = .fault (.uninitRead .dm (dagAddr .one di s))))))

/-! ## Program flow -/

/-- JUMP, direct and indirect (R350, R351, R352): taken, not taken, and taken at a loop's end (R373). That an expired
NOT CE takes the outer count from the counter stack follows R162 against a remark of 95_test_vectors.md (log 29). -/
def Obligations.JumpGoesToItsTarget : Prop :=
  ∀ (c : Cond) (s : State) (a : Addr) (j : Instr), CanTest c s →
    (j = .jump a c ∨ ∃ i, j = .jumpInd i c ∧ a = s.ireg.get (dagIndex .two i)) →
    (condTrue c s = true → atLoopEnd s = false → exec j s = .next { tested c s with pc := a }) ∧
    (condTrue c s = true → atLoopEnd s = true → s.pcPopPending = false → exec j s = .fault .loopEnd) ∧
    (condTrue c s = false → CanAdvance s → exec j s = .next (advance s (tested c s)))

/-- CALL, direct and indirect (R353, R354): the return address is pc + 1 on the PC stack; a full PC stack is the
fault of R454. -/
def Obligations.CallPushesTheReturnAddress : Prop :=
  ∀ (c : Cond) (s : State) (a : Addr) (j : Instr), CanTest c s → s.pcPopPending = false →
    (j = .call a c ∨ ∃ i, j = .callInd i c ∧ a = s.ireg.get (dagIndex .two i)) →
    (condTrue c s = true → atLoopEnd s = false → s.pcStack.length < 16 →
      exec j s = .next { tested c s with pc := a, pcStack := (s.pc + 1) :: s.pcStack }) ∧
    (condTrue c s = true → atLoopEnd s = false → 16 ≤ s.pcStack.length →
      exec j s = .fault (.stackOverflow .pc)) ∧
    (condTrue c s = true → atLoopEnd s = true → exec j s = .fault .loopEnd) ∧
    (condTrue c s = false → CanAdvance s → exec j s = .next (advance s (tested c s)))

/-- JUMP and CALL on FLAG IN (R356): the level of the pin is free, and decides. -/
def Obligations.FlagInDecides : Prop :=
  ∀ (on : Bool) (a : Addr) (s : State), ∃ fi : Bool,
    let t := { s with draws := s.draws + 1, fiLatch := fi }
    (atLoopEnd s = false →
      exec (.jumpFlagIn on a) s = .next { t with pc := if fi = on then a else s.pc + 1 }) ∧
    (atLoopEnd s = false → s.pcPopPending = false → s.pcStack.length < 16 →
      exec (.callFlagIn on a) s = .next
        (if fi = on then { t with pc := a, pcStack := (s.pc + 1) :: s.pcStack } else { t with pc := s.pc + 1 })) ∧
    (atLoopEnd s = false → s.pcPopPending = false → 16 ≤ s.pcStack.length →
      exec (.callFlagIn on a) s =
        (if fi = on then .fault (.stackOverflow .pc) else .next { t with pc := s.pc + 1 })) ∧
    (atLoopEnd s = true → CanAdvance s →
      exec (.jumpFlagIn on a) s = (if fi = on then .fault .loopEnd else .next (advance s t)) ∧
      exec (.callFlagIn on a) s = (if fi = on then .fault .loopEnd else .next (advance s t)))

/-- MODIFY FLAG OUT (R358): every pin by its own field, an event for every operation in the order FL2, FL1, FL0,
FLAG_OUT (log 18). -/
def Obligations.FlagOutDrivesThePins : Prop :=
  ∀ (f2 f1 f0 fo : PinOp) (c : Cond), Runs (.flagOut f2 f1 f0 fo c) c fun s =>
    { s with
      fl2 := newLevel f2 s.fl2
      fl1 := newLevel f1 s.fl1
      fl0 := newLevel f0 s.fl0
      flagOut := newLevel fo s.flagOut
      events := pinEvents fo .flagOut s.flagOut ++ (pinEvents f0 .fl0 s.fl0 ++
        (pinEvents f1 .fl1 s.fl1 ++ (pinEvents f2 .fl2 s.fl2 ++ s.events))) }

/-- RTS (R360): its word; the top of the PC stack is popped into the pc, and no other stack. The COND codes are general
knowledge (R160, log 26), the count that a test of NOT CE takes is the spec's extension of R162 (D6, log 27, log 29). -/
def Obligations.ReturnFromSubroutine : Prop :=
  (∀ cfg (c : Cond), decode cfg (0x0A000#20 ++ c.code) = some (.rts c)) ∧
  ∀ (c : Cond) (s : State), CanTest c s → s.pcPopPending = false →
    (∀ a rest, condTrue c s = true → atLoopEnd s = false → s.pcStack = a :: rest →
      exec (.rts c) s = .next { tested c s with pc := a, pcStack := rest }) ∧
    (condTrue c s = true → atLoopEnd s = false → s.pcStack = [] →
      exec (.rts c) s = .fault (.stackUnderflow .pc)) ∧
    (condTrue c s = false → CanAdvance s → exec (.rts c) s = .next (advance s (tested c s)))

/-- RTI (R361): its word; the pc from the PC stack; ASTAT, MSTAT and IMASK from the status stack. The COND codes are
general knowledge (R160, log 26), the count that a test of NOT CE takes is the spec's extension of R162 (D6, log 27,
log 29). -/
def Obligations.ReturnFromInterrupt : Prop :=
  (∀ cfg (c : Cond), decode cfg (0x0A001#20 ++ c.code) = some (.rti c)) ∧
  ∀ (c : Cond) (s : State), CanTest c s → s.pcPopPending = false →
    (∀ a rest e es, condTrue c s = true → atLoopEnd s = false → s.pcStack = a :: rest →
      s.statusStack = e :: es →
      exec (.rti c) s = .next { tested c s with
        pc := a, pcStack := rest, statusStack := es,
        astat := e.astat, mstat := e.mstat, imask := e.imask }) ∧
    (condTrue c s = true → atLoopEnd s = false → s.pcStack = [] →
      exec (.rti c) s = .fault (.stackUnderflow .pc)) ∧
    (∀ a rest, condTrue c s = true → atLoopEnd s = false → s.pcStack = a :: rest → s.statusStack = [] →
      exec (.rti c) s = .fault (.stackUnderflow .status)) ∧
    (condTrue c s = false → CanAdvance s → exec (.rti c) s = .next (advance s (tested c s)))

/-- DO UNTIL (R370): both pushes; with a stack full, its overflow bit and nothing else. -/
def Obligations.DoUntilPushesTheLoop : Prop :=
  ∀ (a : Addr) (t : Term) (s : State), atLoopEnd s = false → s.pcPopPending = false →
    (s.loopStack.length < 4 → s.pcStack.length < 16 →
      exec (.doUntil a t) s = .next { s with
        pc := s.pc + 1, loopStack := ⟨a, t⟩ :: s.loopStack, pcStack := (s.pc + 1) :: s.pcStack }) ∧
    (4 ≤ s.loopStack.length ∨ 16 ≤ s.pcStack.length →
      exec (.doUntil a t) s = .next { s with
        pc := s.pc + 1
        lso := s.lso || decide (4 ≤ s.loopStack.length)
        pso := s.pso || decide (16 ≤ s.pcStack.length) })

/-- IDLE and IDLE (n) (R380, R381): the pc goes on, the core waits. -/
def Obligations.IdleWaits : Prop :=
  ∀ s : State, atLoopEnd s = false →
    exec .idle s = .next { s with pc := s.pc + 1, idle := true, idleDiv := .d1 } ∧
    (∀ n : SlowDiv, exec (.idleN n) s = .next { s with
      pc := s.pc + 1, idle := true,
      idleDiv := match n with
        | .d16 => .d16
        | .d32 => .d32
        | .d64 => .d64
        | .d128 => .d128 })

/-- The sequencing of an instruction that is no transfer (R371, R372; the pops at the end are the spec's, GK19, and
the count GK17): the next address, the loop again, or the loop left, told on the no-operations. -/
def Obligations.LoopRepeatsOrEnds : Prop :=
  ∀ (i : Instr) (s : State), i = .nop ∨ i = .nopType9 →
    (atLoopEnd s = false → exec i s = .next { s with pc := s.pc + 1 }) ∧
    (∀ t ls a ps, s.pcPopPending = false → s.loopStack = ⟨s.pc, t⟩ :: ls → s.pcStack = a :: ps →
      (t ≠ .ce → termTrue t s = false → exec i s = .next { s with pc := a }) ∧
      (t ≠ .ce → termTrue t s = true → (∀ e ∈ ls.head?, e.addr ≠ s.pc) →
        exec i s = .next { s with pc := s.pc + 1, loopStack := ls, pcStack := ps }) ∧
      (t = .ce → 1 < s.cntr.toNat → exec i s = .next { s with pc := a, cntr := s.cntr - 1 }) ∧
      (t = .ce → s.cntr.toNat = 1 → (∀ e ∈ ls.head?, e.addr ≠ s.pc) → s.cntrStack = [] →
        exec i s = .next { s with
          pc := s.pc + 1, loopStack := ls, pcStack := ps, cntr := 0, cntrValid := false,
          cntrExpired := true }) ∧
      (∀ n ns, t = .ce → s.cntr.toNat = 1 → (∀ e ∈ ls.head?, e.addr ≠ s.pc) → s.cntrStack = n :: ns →
        exec i s = .next { s with
          pc := s.pc + 1, loopStack := ls, pcStack := ps, cntr := n, cntrStack := ns }))

/-- A counted loop of one NOP runs it exactly CNTR times (R371, R162), with no saved count and with one. The count's
expiry is the spec's decision D6 (log 27). -/
def Obligations.CountedLoopRunsCntrTimes : Prop :=
  ∀ (s : State) (n : Nat) (ls : List LoopEntry) (ps : List Addr),
    s.loopStack = ⟨s.pc, .ce⟩ :: ls → s.pcStack = s.pc :: ps → s.pcPopPending = false →
    (∀ e ∈ ls.head?, e.addr ≠ s.pc) → s.cntr.toNat = n + 1 →
    (∀ k, k ≤ n → nops k s = .next { s with cntr := s.cntr - BitVec.ofNat 14 k }) ∧
    (s.cntrStack = [] → nops (n + 1) s = .next { s with
      pc := s.pc + 1, loopStack := ls, pcStack := ps, cntr := 0, cntrValid := false,
      cntrExpired := true }) ∧
    (∀ m ms, s.cntrStack = m :: ms → nops (n + 1) s = .next { s with
      pc := s.pc + 1, loopStack := ls, pcStack := ps, cntr := m, cntrStack := ms })

/-- What may not be the last instruction of a loop (R373; the spec's decision D9): refused as loopEnd. A count of 0 that
CE or NOT CE would test is refused (R162), two loops that end together (R373 item 5), a loop without its entry on
the PC stack (R454). While the pop of `reg = TOPPCSTACK` is pending (R396; decision D25), an instruction that uses
the PC stack is refused, and every instruction at a loop's end. That CALL, RTS and RTI are refused then whatever their
condition is the model's reading (log 13), and so is POP CNTR as a write to the counter (log 14). -/
def Obligations.SequencerRefusals : Prop :=
  (∀ s : State, atLoopEnd s = true → s.pcPopPending = false →
    (∀ a t, exec (.doUntil a t) s = .fault .loopEnd) ∧
    exec .idle s = .fault .loopEnd ∧
    (∀ n, exec (.idleN n) s = .fault .loopEnd) ∧
    (∀ c, CanTest c s → condTrue c s = true →
      exec (.rts c) s = .fault .loopEnd ∧ exec (.rti c) s = .fault .loopEnd) ∧
    (∀ pp lp cp sp, (pp || lp) = true → exec (.stackControl pp lp cp sp) s = .fault .loopEnd) ∧
    (∀ r, exec (.regFromTop r) s = .fault .loopEnd ∧ exec (.topFromReg r) s = .fault .loopEnd) ∧
    (endsOnCe s = true →
      (∀ d v, d = .reg .cntr ∨ d = .owrcntr → exec (.loadReg d v) s = .fault .loopEnd) ∧
      (∀ d r, d = .reg .cntr ∨ d = .owrcntr → exec (.regMove d r) s = .fault .loopEnd) ∧
      (∀ d a, d = .reg .cntr ∨ d = .owrcntr → exec (.dmReadDirect d a) s = .fault .loopEnd) ∧
      (∀ lp sp pp, exec (.stackControl pp lp true sp) s = .fault .loopEnd) ∧
      (∀ i, condOf i = some .notCe → exec i s = .fault .loopEnd)) ∧
    (∀ i, endsAnyLoop i = true → ¬ twoWriters i →
      (endsOnCe s = true → s.cntr = 0 → exec i s = .fault .ceWithZeroCounter) ∧
      (loopDone s = true → nestedEnd s = true → (endsOnCe s = true → s.cntr ≠ 0) →
        exec i s = .fault .loopEnd)) ∧
    (s.pcStack = [] → (endsOnCe s = true → s.cntr ≠ 0) → nestedEnd s = false →
      exec .nop s = .fault (.stackUnderflow .pc))) ∧
  (∀ (i : Instr) (s : State), condOf i = some .notCe → s.pcPopPending = false → atLoopEnd s = false → s.cntr = 0 →
    exec i s = .fault .ceWithZeroCounter) ∧
  (∀ s : State, s.pcPopPending = true →
    (∀ a c, exec (.call a c) s = .fault .pcPopHazard) ∧
    (∀ i c, exec (.callInd i c) s = .fault .pcPopHazard) ∧
    (∀ on a, exec (.callFlagIn on a) s = .fault .pcPopHazard) ∧
    (∀ c, exec (.rts c) s = .fault .pcPopHazard ∧ exec (.rti c) s = .fault .pcPopHazard) ∧
    (∀ a t, exec (.doUntil a t) s = .fault .pcPopHazard) ∧
    (∀ lp cp sp, exec (.stackControl true lp cp sp) s = .fault .pcPopHazard) ∧
    (∀ r, exec (.regFromTop r) s = .fault .pcPopHazard ∧ exec (.topFromReg r) s = .fault .pcPopHazard) ∧
    (atLoopEnd s = true → ∀ i, ¬ twoWriters i → exec i s = .fault .pcPopHazard))

/-! ## Misc -/

/-- Stack control (R390): each clause on its own stack; a full status stack and an empty stack are the faults of
R454. -/
def Obligations.StackControlPushesAndPops : Prop :=
  (∀ (pp lp cp : Bool) (sp : StsOp) (s : State), CanAdvance s →
    (pp = true → s.pcPopPending = false ∧ s.pcStack ≠ []) → (lp = true → s.loopStack ≠ []) →
    (cp = true → s.cntrStack ≠ []) →
    (atLoopEnd s = true → pp = false ∧ lp = false ∧ (cp = true → endsOnCe s = false)) →
    (sp = .push → s.statusStack.length < s.cfg.statusStackDepth) → (sp = .pop → s.statusStack ≠ []) →
    exec (.stackControl pp lp cp sp) s = .next (advance s
      (let t : State := match sp, s.statusStack with
        | .push, l => { s with statusStack := ⟨s.astat, s.mstat, s.imask⟩ :: l }
        | .pop, e :: l => { s with statusStack := l, astat := e.astat, mstat := e.mstat, imask := e.imask }
        | _, _ => s
      { t with
        pcStack := if pp then s.pcStack.tail else s.pcStack
        loopStack := if lp then s.loopStack.tail else s.loopStack
        cntrStack := if cp then s.cntrStack.tail else s.cntrStack
        cntr := if cp then s.cntrStack.headD 0 else s.cntr
        cntrValid := cp || s.cntrValid }))) ∧
  (∀ s : State, atLoopEnd s = false → s.pcPopPending = false →
    (s.cfg.statusStackDepth ≤ s.statusStack.length →
      exec (.stackControl false false false .push) s = .fault (.stackOverflow .status)) ∧
    (s.statusStack = [] → exec (.stackControl false false false .pop) s = .fault (.stackUnderflow .status)) ∧
    (s.pcStack = [] → exec (.stackControl true false false .keep) s = .fault (.stackUnderflow .pc)) ∧
    (s.loopStack = [] → exec (.stackControl false true false .keep) s = .fault (.stackUnderflow .loop)) ∧
    (s.cntrStack = [] → exec (.stackControl false false true .keep) s = .fault (.stackUnderflow .counter)))

/-- The TOPPCSTACK forms (R396, R397; the delayed pop and the zero extension are the spec's decision D25; a CNTR that
nothing has written is readable by log 12): the top is
copied and its pop is pending; a push is immediate. -/
def Obligations.TopOfPcStackMoves : Prop :=
  (∀ (d : Reg) (a : Addr) (rest : List Addr) (s : State), atLoopEnd s = false → s.pcPopPending = false →
    s.pcStack = a :: rest → CanWrite (.reg d) s →
    ∃ t, DstWrites (.reg d) (BitVec.ofNat 16 a.toNat) s t ∧
      exec (.regFromTop d) s = .next { t with pc := s.pc + 1, pcPopPending := true }) ∧
  (∀ (r : Reg) (s : State), atLoopEnd s = false → s.pcPopPending = false → CanRead (.reg r) s →
    s.pcStack.length < 16 →
    ∃ v u, SrcReads (.reg r) s v u ∧
      exec (.topFromReg r) s = .next { u with pc := s.pc + 1, pcStack := v.extractLsb' 0 14 :: s.pcStack }) ∧
  (∀ (r : Reg) (s : State), atLoopEnd s = false → s.pcPopPending = false →
    (s.pcStack = [] → exec (.regFromTop r) s = .fault (.stackUnderflow .pc)) ∧
    (CanRead (.reg r) s → 16 ≤ s.pcStack.length → exec (.topFromReg r) s = .fault (.stackOverflow .pc)) ∧
    (¬ CanRead (.reg r) s → exec (.topFromReg r) s = .fault .uninitCntr))

/-- Mode control (R400): each of the seven MSTAT bits by its own field. -/
def Obligations.ModeControlSetsModes : Prop :=
  ∀ ti mm as ol br sr gm : ModeOp, RunsPlain (.modeControl ti mm as ol br sr gm) fun s =>
    { s with mstat :=
        BitVec.ofBool (newMode gm (s.mstat.getLsbD 6)) ++ BitVec.ofBool (newMode ti (s.mstat.getLsbD 5)) ++
        BitVec.ofBool (newMode mm (s.mstat.getLsbD 4)) ++ BitVec.ofBool (newMode as (s.mstat.getLsbD 3)) ++
        BitVec.ofBool (newMode ol (s.mstat.getLsbD 2)) ++ BitVec.ofBool (newMode br (s.mstat.getLsbD 1)) ++
        BitVec.ofBool (newMode sr (s.mstat.getLsbD 0)) }

/-- NOP (R408): the all-zero word, which changes nothing but the sequencing, and carries out a pending pop; every
other word with top byte 0 is reserved. -/
def Obligations.NopOnlyAdvances : Prop :=
  (∀ cfg, decode cfg 0 = some .nop) ∧
  (∀ cfg (w : PWord), w.toNat < 65536 → w ≠ 0 → decode cfg w = none) ∧
  (RunsPlain .nop fun s => s) ∧
  ∀ (s : State) (a : Addr) (rest : List Addr), atLoopEnd s = false → s.pcStack = a :: rest →
    finishStep true (exec .nop s) =
      .next { s with pc := s.pc + 1, pcStack := rest, pcPopPending := false }

/-- ENA INTS and DIS INTS (R410, R411): their words, on EXT_ALU_MAC parts only, and INTS_EN; IMASK stays. -/
def Obligations.InterruptEnableAndDisable : Prop :=
  (∀ cfg : Config, decode cfg 0x040060 = (if cfg.extAluMac then some .enaInts else none) ∧
    decode cfg 0x040040 = if cfg.extAluMac then some .disInts else none) ∧
  RunsPlain .enaInts (fun s => { s with intsEn := true }) ∧
  RunsPlain .disInts (fun s => { s with intsEn := false })

/-! ## Multifunction -/

/-- A computation or a shift beside a read (R430 to R432): all operands are those before the instruction.
A multiply by yop = 0 is the clear of R260 (log 30). -/
def Obligations.ComputeWithMemoryRead : Prop :=
  (∀ (g : Dag) (z : Dest) (k : Calc) (d : Dreg) (i m : Fin 4) (s u : State) (v : Word) (a : Addr),
    ¬ collides z k d → CanAdvance s → NextI g i m s a → DmReads (dagAddr g i s) s v u →
    exec (.compDmRead g z k d i m) s = .next (advance s (putI g i a (putDreg d v (putCalc z k u))))) ∧
  (∀ (z : Dest) (k : Calc) (d : Dreg) (i m : Fin 4) (s u : State) (w : PWord) (a : Addr),
    ¬ collides z k d → CanAdvance s → NextI .two i m s a → PmReads (dagAddr .two i s) s w u →
    exec (.compPmRead z k d i m) s = .next (advance s (putI .two i a (putPm d w (putCalc z k u))))) ∧
  (∀ (g : Dag) (f : ShFn) (x : ShX) (d : Dreg) (i m : Fin 4) (s u : State) (v : Word) (a : Addr),
    ¬ shiftCollides f d → CanAdvance s → NextI g i m s a → DmReads (dagAddr g i s) s v u →
    ∃ t, ShEffect f (xopShift x s) u t ∧
      exec (.shiftDmRead g f x d i m) s = .next (advance s (putI g i a (putDreg d v t)))) ∧
  (∀ (f : ShFn) (x : ShX) (d : Dreg) (i m : Fin 4) (s u : State) (w : PWord) (a : Addr),
    ¬ shiftCollides f d → CanAdvance s → NextI .two i m s a → PmReads (dagAddr .two i s) s w u →
    ∃ t, ShEffect f (xopShift x s) u t ∧
      exec (.shiftPmRead f x d i m) s = .next (advance s (putI .two i a (putPm d w t))))

/-- A computation or a shift beside a register move (R433, R434); the move carries the old value.
A multiply by yop = 0 is the clear of R260 (log 30). -/
def Obligations.ComputeWithRegisterMove : Prop :=
  (∀ (z : Dest) (k : Calc) (d r : Dreg), ¬ collides z k d →
    RunsPlain (.compMove z (some k) d r) fun s => putDreg d (dregVal r s) (putCalc z k s)) ∧
  (∀ (z : Dest) (d r : Dreg), RunsPlain (.compMove z none d r) fun s => putDreg d (dregVal r s) s) ∧
  (∀ (f : ShFn) (x : ShX) (d r : Dreg) (s : State), ¬ shiftCollides f d → CanAdvance s →
    ∃ t, ShEffect f (xopShift x s) s t ∧
      exec (.shiftMove f x d r) s = .next (advance s (putDreg d (dregVal r s) t)))

/-- A computation or a shift beside a store (R436 to R438): the old value of the register is stored.
A multiply by yop = 0 is the clear of R260 (log 30). -/
def Obligations.ComputeWithMemoryWrite : Prop :=
  (∀ (g : Dag) (r : Dreg) (i m : Fin 4) (s : State) (a : Addr), CanAdvance s → NextI g i m s a →
    Writable s.cfg.dmMap (dagAddr g i s) →
    ∃ u, DmStores (dagAddr g i s) (dregVal r s) s u ∧
      (∀ z k, exec (.compDmWrite g z k r i m) s = .next (advance s (putI g i a (putCalc z k u)))) ∧
      (∀ f x, ∃ t, ShEffect f (xopShift x s) u t ∧
        exec (.shiftDmWrite g f x r i m) s = .next (advance s (putI g i a t)))) ∧
  (∀ (r : Dreg) (i m : Fin 4) (s : State) (a : Addr), CanAdvance s → NextI .two i m s a →
    Writable s.cfg.pmMap (dagAddr .two i s) →
    ∃ u, PmStores (dagAddr .two i s) (dregVal r s ++ s.px) s u ∧
      (∀ z k, exec (.compPmWrite z k r i m) s = .next (advance s (putI .two i a (putCalc z k u)))) ∧
      (∀ f x, ∃ t, ShEffect f (xopShift x s) u t ∧
        exec (.shiftPmWrite f x r i m) s = .next (advance s (putI .two i a t))))

/-- The two reads of type 1, alone and beside a computation (R440, R441): program memory is read first (R102).
A multiply by yop = 0 is the clear of R260 (log 30). -/
def Obligations.DualReadsLoad : Prop :=
  ∀ (pd : PdReg) (dd : DdReg) (pi pm di dm : Fin 4) (s t u : State) (w : PWord) (v : Word) (ap ai : Addr),
    CanAdvance s → NextI .two pi pm s ap → NextI .one di dm s ai →
    PmReads (dagAddr .two pi s) s w t → DmReads (dagAddr .one di s) t v u →
    exec (.dualRead pd dd pi pm di dm) s = .next (advance s (putI .two pi ap (putI .one di ai
      (putPm (pdDreg pd) w (putDreg (ddDreg dd) v u))))) ∧
    (∀ k, exec (.compDualRead k pd dd pi pm di dm) s = .next (advance s (putI .two pi ap (putI .one di ai
      (putPm (pdDreg pd) w (putDreg (ddDreg dd) v (putCalc .result k u)))))))

/-- Two writers of one register (R422; the spec's decision D14): the fault Indeterminate, in every state. -/
def Obligations.TwoWritersAreIndeterminate : Prop :=
  ∀ (i : Instr) (s : State), twoWriters i → exec i s = .fault .indeterminate

/-! ## Interrupts and the step -/

/-- The environment's part of a step (R462, R471): it takes the next request, which sets the latches of sources
of the table only, the timer's only while TIMER is 1, and changes nothing else (log 9). -/
def Obligations.EnvironmentRaisesLatches : Prop :=
  ∀ s : State,
    (s.irqInputs = [] → environmentStep s = s) ∧
    (∀ r rest, s.irqInputs = r :: rest →
      ∃ p, environmentStep s = { s with irqPending := p, irqInputs := rest } ∧
        ∀ k : Fin 16, p.getLsbD k.val = true ↔
          s.irqPending.getLsbD k.val = true ∨
          (r.getLsbD k.val = true ∧
            ∃ q ∈ s.cfg.irqTable, q.latch = k ∧ (q.isTimer = true → s.mstat.getLsbD 5 = true)))

/-- Interrupt entry (R462, R464, R465; the spec's decision D12): the eligible source with the smallest priority is
taken; pc, ASTAT, MSTAT and IMASK are saved, IMASK becomes the entry mask, the pc the vector, IDLE ends;
a pending pop or a full stack is refused. -/
def Obligations.InterruptEntrySavesAndVectors : Prop :=
  ∀ (s : State) (q : IrqSource), let e := environmentStep s
    Eligible e q → (∀ r, Eligible e r → r ≠ q → q.priority < r.priority) →
    (e.pcPopPending = true → step s = .fault .pcPopHazard) ∧
    (e.pcPopPending = false → 16 ≤ e.pcStack.length → step s = .fault (.stackOverflow .pc)) ∧
    (e.pcPopPending = false → e.pcStack.length < 16 → e.cfg.statusStackDepth ≤ e.statusStack.length →
      step s = .fault (.stackOverflow .status)) ∧
    (e.pcPopPending = false → e.pcStack.length < 16 → e.statusStack.length < e.cfg.statusStackDepth →
      ∃ m p, LowBits e.cfg.imaskBits (entryMaskValue e.imask e.icntl q.entryMask) m ∧
        (∀ k, k < 16 → p.getLsbD k =
          (e.irqPending.getLsbD k && !(q.clearsOnEntry && decide (k = q.latch.val)))) ∧
        step s = .next { e with
          pc := q.vector
          pcStack := e.pc :: e.pcStack
          statusStack := ⟨e.astat, e.mstat, e.imask⟩ :: e.statusStack
          imask := m
          irqPending := p
          idle := false })

/-- An interrupt followed by its RTI leaves the interrupted program as it was (R464, R466): every register, flag,
mode, mask and stack; only the latch and IDLE differ. -/
def Obligations.InterruptThenReturnRestores : Prop :=
  ∀ (q : IrqSource) (s t : State), s.pcPopPending = false → (∀ e ∈ s.loopStack.head?, e.addr ≠ q.vector) →
    takeInterrupt q s = .ok t →
    exec (.rti .always) t = .next { s with irqPending := t.irqPending, idle := false }

/-- What a step does when no source is eligible (R462): nothing while idle; else the instruction at the pc, by its
meaning, and then the delayed pop of R396. A word that is no instruction, a word a store wrote (R112), an address with
no memory or with a word never written (R84), and a delayed pop of an empty PC stack (R454) are faults; a device gives
a free word (log 21). -/
def Obligations.StepRunsTheDecodedInstruction : Prop :=
  ∀ s : State, let e := environmentStep s
    (∀ q, ¬ Eligible e q) →
    (e.idle = true → step s = .next e) ∧
    (e.idle = false → e.pc.toNat ∈ e.pmDirty → step s = .fault (.fetchAfterPmWrite e.pc)) ∧
    (e.idle = false → e.pc.toNat ∉ e.pmDirty →
      (backing e.cfg.pmMap e.pc.toNat = none → step s = .fault (.unmappedAccess .pm e.pc)) ∧
      (backing e.cfg.pmMap e.pc.toNat = some .ram ∨ backing e.cfg.pmMap e.pc.toNat = some .rom →
        Memory.readPm e.pm e.pc = none → step s = .fault (.uninitRead .pm e.pc))) ∧
    (∀ w u, e.idle = false → Fetches e w u → decode e.cfg w = none → step s = .fault (.reservedInstruction w)) ∧
    (∀ w u i, e.idle = false → Fetches e w u → decode e.cfg w = some i →
      (e.pcPopPending = false → step s = exec i u) ∧
      (e.pcPopPending = true →
        (∀ t a rest, exec i u = .next t → t.pcStack = a :: rest →
          step s = .next { t with pcStack := rest, pcPopPending := false }) ∧
        (∀ t, exec i u = .next t → t.pcStack = [] → step s = .fault (.stackUnderflow .pc)) ∧
        (∀ f, exec i u = .fault f → step s = .fault f)))

/-! ## The whole machine -/

/-- What the source says of reset (R58): MSTAT is 0, interrupts are enabled, the overflow bits are clear. -/
def Obligations.ResetByTheSource : Prop :=
  State.reset.mstat = 0 ∧ State.reset.intsEn = true ∧
  State.reset.pso = false ∧ State.reset.cso = false ∧ State.reset.sso = false ∧ State.reset.lso = false

/-- What the spec decides of reset (R59, decision D4; log 2): the pc is 0, the stacks are empty, SSTAT reads 0x55,
nothing is masked in or pending, nothing is in memory; and the state satisfies `StateInv`. -/
def Obligations.ResetByTheSpecSatisfiesInv : Prop :=
  State.reset.pc = 0 ∧ sstatVal State.reset = 0x55 ∧ State.reset.astat = 0 ∧ State.reset.imask = 0 ∧
  State.reset.cntrValid = false ∧ State.reset.irqPending = 0 ∧ State.reset.pcPopPending = false ∧
  State.reset.idle = false ∧ State.reset.pmDirty = [] ∧ (∀ a, Memory.readPm State.reset.pm a = none) ∧
  (∀ a, Memory.readDm State.reset.dm a = none) ∧ StateInv State.reset

/-- The invariant `StateInv` is kept by every step, from every state. -/
def Obligations.EveryStepKeepsInv : Prop :=
  ∀ s t : State, StateInv s → step s = .next t → StateInv t

/-- No step clears an overflow bit of SSTAT (R45), and none changes the parameters of the part (R5). -/
def Obligations.OverflowBitsAreSticky : Prop :=
  ∀ s t : State, step s = .next t →
    t.cfg = s.cfg ∧ (s.pso = true → t.pso = true) ∧ (s.cso = true → t.cso = true) ∧
    (s.sso = true → t.sso = true) ∧ (s.lso = true → t.lso = true)

/-- The writers of each flag (R38): an instruction that does not load ASTAT as a whole changes AZ, AN, AV and AC only
if it is an ALU operation, AS only if it is ABS, AQ only if it is a divide step, MV only if it is a MAC
operation, SS only if it is EXP (HI) or (HIX). -/
def Obligations.FlagsHaveTheirWriters : Prop :=
  ∀ (i : Instr) (s t : State), exec i s = .next t → loadsAstat i = false →
    (∀ k, k < 4 → setsAluFlags i = false → t.astat.getLsbD k = s.astat.getLsbD k) ∧
    (setsAs i = false → t.astat.getLsbD 4 = s.astat.getLsbD 4) ∧
    (setsAq i = false → t.astat.getLsbD 5 = s.astat.getLsbD 5) ∧
    (setsMv i = false → t.astat.getLsbD 6 = s.astat.getLsbD 6) ∧
    (setsSs i = false → t.astat.getLsbD 7 = s.astat.getLsbD 7)

/-- The bank that SEC_REG does not select is out of every instruction's reach (R28): whatever is executed, it stays
as it was. -/
def Obligations.OtherBankIsUntouched : Prop :=
  ∀ (i : Instr) (s t : State), exec i s = .next t →
    (if s.mstat.getLsbD 0 then t.prim = s.prim else t.sec = s.sec)

/-! ## Encoding -/

/-- Every well-formed instruction is read back from its word, on every part (R120 to R197). -/
def Obligations.DecodeReadsBackEncode : Prop :=
  ∀ (cfg : Config) (i : Instr), wellFormed cfg i = true → decode cfg (encode i) = some i

/-- A word is no instruction exactly when R180 reserves it (decision D13), with R182's ignored fields (log 16) and
the TOPPCSTACK forms on every part (log 17); whatever the decoder answers is well formed (R197, log 15). The words
with top byte 0x08, and NOT CE with AMF 00000 in type 9 (R409), are among the reserved ones. -/
def Obligations.ReservedWordsAreRefused : Prop :=
  (∀ (cfg : Config) (w : PWord), decode cfg w = none ↔ isReserved cfg w = true) ∧
  (∀ cfg w i, decode cfg w = some i → wellFormed cfg i = true) ∧
  (∀ cfg (w : PWord), w.extractLsb' 16 8 = 0x08 → decode cfg w = none) ∧
  (∀ cfg (w : PWord), w.extractLsb' 19 5 = 0b00100 → w.extractLsb' 13 5 = 0 → w.extractLsb' 0 4 = 14 →
    decode cfg w = none)

/-- Words of the spec's examples, one of every family, and words with every xop and yop code of the three units
(R163), read as what they stand for; Xop 001 of the shifter is reserved (R180). -/
def Obligations.WordsOfTheSpecDecode : Prop :=
  decode Config.standard 0x22E005 = some (.subXY .result .ax0 .ay0 .ge) ∧
  decode Config.standard 0x278A5F = some (.tstBit .feedback 5 .ar .always) ∧
  decode Config.standard 0x210805 = some (.macSS .result .mx0 .my1 .ge) ∧
  decode Config.standard 0x0E3804 = some (.ashiftLoOr .si .lt) ∧
  decode Config.standard 0x0D083A = some (.regMove (.reg (.i 7)) (.reg (.dreg .ar))) ∧
  decode Config.standard 0x60004D = some (.dmRead .one .ay0 3 1) ∧
  decode Config.standard 0x032346 = some (.jumpFlagIn true 0x1234) ∧
  decode Config.standard 0x14105E = some (.doUntil 0x0105 .ce) ∧
  decode Config.standard 0x04001C = some (.stackControl true true true .keep) ∧
  decode Config.standard 0x626000 = some (.compDmRead .one .result (.alu .add .ax0 .ay0) .ax0 0 0) ∧
  ((List.range 8).map fun x => decode Config.standard (BitVec.ofNat 24 (0x22600F + 256 * x))) =
    ([AluX.ax0, .ax1, .ar, .mr0, .mr1, .mr2, .sr0, .sr1].map fun x => some (.addXY .result x .ay0 .always)) ∧
  ((List.range 3).map fun y => decode Config.standard (BitVec.ofNat 24 (0x22600F + 2048 * y))) =
    ([AluY.ay0, .ay1, .af].map fun y => some (.addXY .result .ax0 y .always)) ∧
  decode Config.standard 0x22F80F = some (.subXY .result .ax0 .zero .always) ∧
  ((List.range 8).map fun x => decode Config.standard (BitVec.ofNat 24 (0x20800F + 256 * x))) =
    ([MacX.mx0, .mx1, .ar, .mr0, .mr1, .mr2, .sr0, .sr1].map fun x => some (.mulSS .result x .my0 .always)) ∧
  ((List.range 4).map fun y => decode Config.standard (BitVec.ofNat 24 (0x20A00F + 2048 * y))) =
    ([MacY.my0, .my1, .mf, .zero].map fun y => some (.mulSU .result .mx0 y .always)) ∧
  ((List.range 8).map fun x => decode Config.standard (BitVec.ofNat 24 (0x0E000F + 256 * x))) =
    [some (.lshiftHi .si .always), none, some (.lshiftHi .ar .always), some (.lshiftHi .mr0 .always),
     some (.lshiftHi .mr1 .always), some (.lshiftHi .mr2 .always), some (.lshiftHi .sr0 .always),
     some (.lshiftHi .sr1 .always)]
end

