-- ==== Sys2Proof/Laws/Bits.lean ====
section
/-!
SUPPORT. The laws of the bit helpers and of the flags built from them.
-/

namespace Sys2Proof.Machine

theorem getLsbD_setBitTo {w : Nat} (v : BitVec w) (n i : Nat) (b : Bool) (h : n < w) :
    (setBitTo v n b).getLsbD i = if i = n then b else v.getLsbD i := by
  unfold setBitTo
  cases b <;> by_cases hi : i = n
  · subst hi; simp [h]
  · simp [hi, BitVec.getLsbD_twoPow, Ne.symm hi]
    intro hv; exact BitVec.lt_of_getLsbD hv
  · subst hi; simp [h]
  · simp [hi, BitVec.getLsbD_twoPow, Ne.symm hi]

/-- `keepLow` keeps the bits below `n` and clears the others. -/
theorem getLsbD_keepLow (n i : Nat) (v : BitVec 16) :
    (keepLow n v).getLsbD i = (decide (i < n) && v.getLsbD i) := by
  by_cases h : i < 16
  · simp [keepLow, h]
  · simp only [keepLow, BitVec.getLsbD_setWidth, h, decide_false, Bool.false_and]
    rw [BitVec.getLsbD_of_ge v i (by omega), Bool.and_false]

theorem keepLow_keepLow (n : Nat) (v : BitVec 16) : keepLow n (keepLow n v) = keepLow n v := by
  apply BitVec.eq_of_getLsbD_eq
  intro i hi
  simp [getLsbD_keepLow]

@[simp] theorem keepLow_zero (n : Nat) : keepLow n 0 = 0 := by
  apply BitVec.eq_of_getLsbD_eq
  intro i hi
  simp [getLsbD_keepLow]

@[simp] theorem azOf_withAluFlags (f : BitVec 8) (az an av ac : Bool) :
    azOf (withAluFlags f az an av ac) = az := by
  simp (disch := decide) only [azOf, withAluFlags, getLsbD_setBitTo]
  simp
@[simp] theorem anOf_withAluFlags (f : BitVec 8) (az an av ac : Bool) :
    anOf (withAluFlags f az an av ac) = an := by
  simp (disch := decide) only [anOf, withAluFlags, getLsbD_setBitTo]
  simp
@[simp] theorem avOf_withAluFlags (f : BitVec 8) (az an av ac : Bool) :
    avOf (withAluFlags f az an av ac) = av := by
  simp (disch := decide) only [avOf, withAluFlags, getLsbD_setBitTo]
  simp
@[simp] theorem acOf_withAluFlags (f : BitVec 8) (az an av ac : Bool) :
    acOf (withAluFlags f az an av ac) = ac := by
  simp (disch := decide) only [acOf, withAluFlags, getLsbD_setBitTo]
  simp

/-- The upper four bits of ASTAT are not the ALU's (R38). -/
theorem getLsbD_withAluFlags_high (f : BitVec 8) (az an av ac : Bool) (i : Nat) (h : 4 ≤ i) :
    (withAluFlags f az an av ac).getLsbD i = f.getLsbD i := by
  simp (disch := decide) only [withAluFlags, getLsbD_setBitTo]
  rw [if_neg (by omega), if_neg (by omega), if_neg (by omega), if_neg (by omega)]

/-- SSTAT's empty bits are functions of the stacks (R44), its overflow bits the stored ones (R45). -/
theorem sstat_bits (s : State) :
    (sstat s).getLsbD 0 = s.pcStack.isEmpty ∧ (sstat s).getLsbD 1 = s.pso ∧
    (sstat s).getLsbD 2 = s.cntrStack.isEmpty ∧ (sstat s).getLsbD 3 = s.cso ∧
    (sstat s).getLsbD 4 = s.statusStack.isEmpty ∧ (sstat s).getLsbD 5 = s.sso ∧
    (sstat s).getLsbD 6 = s.loopStack.isEmpty ∧ (sstat s).getLsbD 7 = s.lso := by
  refine ⟨?_, ?_, ?_, ?_, ?_, ?_, ?_, ?_⟩ <;>
    simp only [sstat, BitVec.getLsbD_append, BitVec.getLsbD_ofBool] <;> simp

end Sys2Proof.Machine
end

