-- ==== Sys2Proof/Laws/Codes.lean ====
section
/-!
SUPPORT. The code of every field read back is the field: the small facts the round trip of decode and
encode is made of.
-/

namespace Sys2Proof

@[simp] theorem Cond.ofCode_code (x : Cond) : Cond.ofCode x.code = x := by cases x <;> rfl
@[simp] theorem Term.ofCode_code (x : Term) : Term.ofCode x.code = x := by cases x <;> rfl
@[simp] theorem Dest.ofCode_code (x : Dest) : Dest.ofCode x.code = x := by cases x <;> rfl
@[simp] theorem AluX.ofCode_code (x : AluX) : AluX.ofCode x.code = x := by cases x <;> rfl
@[simp] theorem AluY.ofCode_code (x : AluY) : AluY.ofCode x.code = x := by cases x <;> rfl
@[simp] theorem MacX.ofCode_code (x : MacX) : MacX.ofCode x.code = x := by cases x <;> rfl
@[simp] theorem MacY.ofCode_code (x : MacY) : MacY.ofCode x.code = x := by cases x <;> rfl
@[simp] theorem Dreg.ofCode_code (x : Dreg) : Dreg.ofCode x.code = x := by cases x <;> rfl
@[simp] theorem Dag.ofCode_code (x : Dag) : Dag.ofCode x.code = x := by cases x <;> rfl
@[simp] theorem DdReg.ofCode_code (x : DdReg) : DdReg.ofCode x.code = x := by cases x <;> rfl
@[simp] theorem PdReg.ofCode_code (x : PdReg) : PdReg.ofCode x.code = x := by cases x <;> rfl
@[simp] theorem PinOp.ofCode_code (x : PinOp) : PinOp.ofCode x.code = x := by cases x <;> rfl
@[simp] theorem ModeOp.ofCode_code (x : ModeOp) : ModeOp.ofCode x.code = x := by cases x <;> rfl
@[simp] theorem StsOp.ofCode_code (x : StsOp) : StsOp.ofCode x.code = x := by cases x <;> rfl
@[simp] theorem ShFn.ofCode_code (x : ShFn) : ShFn.ofCode x.code = x := by cases x <;> rfl
@[simp] theorem ShX.ofCode_code (x : ShX) : ShX.ofCode x.code = some x := by cases x <;> rfl
@[simp] theorem SlowDiv.ofCode_code (x : SlowDiv) : SlowDiv.ofCode x.code = some x := by cases x <;> rfl

@[simp] theorem AluFn.ofCode_code (f : AluFn) : AluFn.ofCode (f.code.extractLsb' 0 4) = f := by
  cases f <;> rfl

@[simp] theorem macOfCode_macCode (op : MacOp) (fmt : MacFmt) : macOfCode (macCode op fmt) = (op, fmt) := by
  cases op <;> cases fmt <;> rfl

@[simp] theorem Calc.ofCode_code (k : Calc) :
    Calc.ofCode (k.code.extractLsb' 5 5) (k.code.extractLsb' 3 2) (k.code.extractLsb' 0 3) = some k := by
  cases k with
  | alu f x y => cases f <;> cases x <;> cases y <;> rfl
  | mac op fmt x y => cases op <;> cases fmt <;> cases x <;> cases y <;> rfl

@[simp] theorem fin4OfCode_fin4Code (n : Fin 4) : fin4OfCode (fin4Code n) = n := rfl

@[simp] theorem boolOfCode_ofBool (b : Bool) : boolOfCode (BitVec.ofBool b) = b := by cases b <;> rfl

@[simp] theorem bitNoOfCode_bitNo (n : Fin 16) : bitNoOfCode (bitNoYY n) (bitNoCC n) = n := by
  revert n; decide

@[simp] theorem boolOfCode_bo (k : Konst) : boolOfCode (k.bo.extractLsb' 1 1) = k.inv := by
  cases k with
  | mk n inv => cases inv <;> simp [Konst.bo] <;> rfl

@[simp] theorem Reg.ofCode_code (r : Reg) :
    Reg.ofCode (r.code.extractLsb' 4 2) (r.code.extractLsb' 0 4) = some r := by
  cases r with
  | dreg d => cases d <;> rfl
  | i n => revert n; decide
  | m n => revert n; decide
  | l n => revert n; decide
  | port p => cases p <;> rfl
  | astat | mstat | imask | icntl | cntr | sb | px => rfl

@[simp] theorem SrcReg.ofCode_code (r : SrcReg) :
    SrcReg.ofCode (r.code.extractLsb' 4 2) (r.code.extractLsb' 0 4) = some r := by
  cases r with
  | sstat => rfl
  | reg r =>
    cases r with
    | dreg d => cases d <;> rfl
    | i n => revert n; decide
    | m n => revert n; decide
    | l n => revert n; decide
    | port p => cases p <;> rfl
    | astat | mstat | imask | icntl | cntr | sb | px => rfl

@[simp] theorem DstReg.ofCode_code (r : DstReg) :
    DstReg.ofCode (r.code.extractLsb' 4 2) (r.code.extractLsb' 0 4) = some r := by
  cases r with
  | owrcntr | ifc => rfl
  | reg r =>
    cases r with
    | dreg d => cases d <;> rfl
    | i n => revert n; decide
    | m n => revert n; decide
    | l n => revert n; decide
    | port p => cases p <;> rfl
    | astat | mstat | imask | icntl | cntr | sb | px => rfl

/-- What the decoder answers is well formed on the part (R180). -/
theorem decode_wellFormed (c : Config) (w : PWord) (i : Instr) (h : decode c w = some i) :
    wellFormed c i = true := by
  unfold decode at h
  exact (Option.filter_eq_some_iff.1 h).2

end Sys2Proof
end

