-- ==== Sys2Proof/Laws/Memory.lean ====
section
/-!
SUPPORT. The laws of memory: a read after a write, and the canonical form every write keeps.
-/

namespace Sys2Proof.Machine

@[simp] theorem Memory.read_nil (a : Nat) : Memory.read [] a = none := rfl

theorem Memory.read_write_same (m : Memory) (a : Nat) (v : BitVec 8) :
    Memory.read (Memory.write m a v) a = some v := by
  induction m with
  | nil => simp [Memory.write, Memory.read]
  | cons c m ih =>
    simp only [Memory.write]
    split
    · simp [Memory.read]
    · split
      · simp [Memory.read]
      · rename_i h1 h2
        simp [Memory.read, h2, ih]

theorem Memory.read_write_other (m : Memory) (a b : Nat) (v : BitVec 8) (h : b ≠ a) :
    Memory.read (Memory.write m a v) b = Memory.read m b := by
  induction m with
  | nil => simp [Memory.write, Memory.read, h]
  | cons c m ih =>
    simp only [Memory.write]
    split
    · simp [Memory.read, h]
    · split
      · rename_i h2
        have hc : b ≠ c.1 := h2 ▸ h
        simp [Memory.read, h, hc]
      · simp [Memory.read, ih]

/-- A read after a write of one byte, at any cell. -/
theorem Memory.read_write (m : Memory) (a b : Nat) (v : BitVec 8) :
    Memory.read (Memory.write m a v) b = if b = a then some v else Memory.read m b := by
  split
  · rename_i h
    exact h ▸ Memory.read_write_same m a v
  · rename_i h
    exact Memory.read_write_other m a b v h

theorem Memory.wf_cons (c : Host.Cell) (m : Memory) :
    Memory.wf (c :: m) = true ↔ (∀ d, m.head? = some d → c.1 < d.1) ∧ Memory.wf m = true := by
  cases m <;> simp [Memory.wf]

theorem Memory.head_write (m : Memory) (a : Nat) (v : BitVec 8) (d : Host.Cell)
    (h : (Memory.write m a v).head? = some d) : d.1 = a ∨ m.head?.any (fun e => e.1 == d.1) = true := by
  cases m with
  | nil => simp [Memory.write] at h; simp [← h]
  | cons c m =>
    simp only [Memory.write] at h
    split at h
    · simp at h; simp [← h]
    · split at h
      · simp at h; simp [← h]
      · simp at h; simp [← h]

/-- A write keeps the canonical form. -/
theorem Memory.wf_write (m : Memory) (a : Nat) (v : BitVec 8) (h : Memory.wf m = true) :
    Memory.wf (Memory.write m a v) = true := by
  induction m with
  | nil => simp [Memory.write, Memory.wf]
  | cons c m ih =>
    have hc := (Memory.wf_cons c m).1 h
    simp only [Memory.write]
    split
    · rename_i h1
      exact (Memory.wf_cons _ _).2 ⟨by simpa using h1, h⟩
    · split
      · rename_i h2
        exact (Memory.wf_cons _ _).2 ⟨by simpa [h2] using hc.1, hc.2⟩
      · rename_i h1 h2
        refine (Memory.wf_cons _ _).2 ⟨fun d hd => ?_, ih hc.2⟩
        rcases Memory.head_write m a v d hd with hda | hda
        · omega
        · cases hm : m.head? with
          | none => simp [hm] at hda
          | some e =>
            simp [hm] at hda
            have := hc.1 e hm
            omega

theorem Memory.wf_writeDm (m : Memory) (a : Addr) (v : Word) (h : Memory.wf m = true) :
    Memory.wf (Memory.writeDm m a v) = true :=
  Memory.wf_write _ _ _ (Memory.wf_write _ _ _ h)

theorem Memory.wf_writePm (m : Memory) (a : Addr) (v : PWord) (h : Memory.wf m = true) :
    Memory.wf (Memory.writePm m a v) = true :=
  Memory.wf_write _ _ _ (Memory.wf_write _ _ _ (Memory.wf_write _ _ _ h))

/-- A byte outside the written data-memory word keeps its value. -/
theorem Memory.read_writeDm_other (m : Memory) (a : Addr) (v : Word) (k : Nat)
    (h : k < 2 * a.toNat ∨ 2 * a.toNat + 2 ≤ k) :
    Memory.read (Memory.writeDm m a v) k = Memory.read m k := by
  simp only [Memory.writeDm, Memory.read_write]
  rw [if_neg (by omega), if_neg (by omega)]

/-- A byte outside the written program-memory word keeps its value. -/
theorem Memory.read_writePm_other (m : Memory) (a : Addr) (v : PWord) (k : Nat)
    (h : k < 3 * a.toNat ∨ 3 * a.toNat + 3 ≤ k) :
    Memory.read (Memory.writePm m a v) k = Memory.read m k := by
  simp only [Memory.writePm, Memory.read_write]
  rw [if_neg (by omega), if_neg (by omega), if_neg (by omega)]

theorem Memory.readDm_writeDm_same (m : Memory) (a : Addr) (v : Word) :
    Memory.readDm (Memory.writeDm m a v) a = some v := by
  have h : v.extractLsb' 8 8 ++ v.extractLsb' 0 8 = v := by
    apply BitVec.eq_of_getLsbD_eq
    intro i hi
    simp only [BitVec.getLsbD_append, BitVec.getLsbD_extractLsb']
    split
    · simp [*]
    · rw [show 8 + (i - 8) = i by omega]; simp; omega
  simp [Memory.readDm, Memory.writeDm, Memory.read_write, h]

theorem Memory.readDm_writeDm_other (m : Memory) (a b : Addr) (v : Word) (h : b ≠ a) :
    Memory.readDm (Memory.writeDm m a v) b = Memory.readDm m b := by
  have hn : b.toNat ≠ a.toNat := fun e => h (BitVec.eq_of_toNat_eq e)
  simp only [Memory.readDm]
  rw [Memory.read_writeDm_other _ _ _ _ (by omega), Memory.read_writeDm_other _ _ _ _ (by omega)]

theorem Memory.readPm_writePm_same (m : Memory) (a : Addr) (v : PWord) :
    Memory.readPm (Memory.writePm m a v) a = some v := by
  have h : v.extractLsb' 16 8 ++ v.extractLsb' 8 8 ++ v.extractLsb' 0 8 = v := by
    apply BitVec.eq_of_getLsbD_eq
    intro i hi
    simp only [BitVec.getLsbD_append, BitVec.getLsbD_extractLsb']
    split
    · simp [*]
    · split
      · rw [show 8 + (i - 8) = i by omega]; simp; omega
      · rw [show 16 + (i - 8 - 8) = i by omega]; simp; omega
  simp [Memory.readPm, Memory.writePm, Memory.read_write, h]

theorem Memory.readPm_writePm_other (m : Memory) (a b : Addr) (v : PWord) (h : b ≠ a) :
    Memory.readPm (Memory.writePm m a v) b = Memory.readPm m b := by
  have hn : b.toNat ≠ a.toNat := fun e => h (BitVec.eq_of_toNat_eq e)
  simp only [Memory.readPm]
  rw [Memory.read_writePm_other _ _ _ _ (by omega), Memory.read_writePm_other _ _ _ _ (by omega),
    Memory.read_writePm_other _ _ _ _ (by omega)]

/-- `PM_DIRTY` after a store holds the stored address and what it held. -/
theorem mem_addToSet (l : List Nat) (a b : Nat) : b ∈ addToSet l a ↔ b = a ∨ b ∈ l := by
  induction l with
  | nil => simp [addToSet]
  | cons c l ih =>
    simp only [addToSet]
    split
    · simp
    · split
      · rename_i h; simp [h]
      · simp [ih]; tauto

end Sys2Proof.Machine
end

