-- ==== Sys2Proof/Laws/State.lean ====
section
/-!
SUPPORT. The state record: one lemma per field per update, and the bank a bank update leaves selected.
-/

namespace Sys2Proof.Machine

/-! ## mapBank -/

@[simp] theorem mapBank_cfg (f : Bank → Bank) (s : State) : (s.mapBank f).cfg = s.cfg := rfl
@[simp] theorem mapBank_ireg (f : Bank → Bank) (s : State) : (s.mapBank f).ireg = s.ireg := rfl
@[simp] theorem mapBank_mreg (f : Bank → Bank) (s : State) : (s.mapBank f).mreg = s.mreg := rfl
@[simp] theorem mapBank_lreg (f : Bank → Bank) (s : State) : (s.mapBank f).lreg = s.lreg := rfl
@[simp] theorem mapBank_px (f : Bank → Bank) (s : State) : (s.mapBank f).px = s.px := rfl
@[simp] theorem mapBank_pc (f : Bank → Bank) (s : State) : (s.mapBank f).pc = s.pc := rfl
@[simp] theorem mapBank_pcStack (f : Bank → Bank) (s : State) : (s.mapBank f).pcStack = s.pcStack := rfl
@[simp] theorem mapBank_loopStack (f : Bank → Bank) (s : State) : (s.mapBank f).loopStack = s.loopStack := rfl
@[simp] theorem mapBank_cntr (f : Bank → Bank) (s : State) : (s.mapBank f).cntr = s.cntr := rfl
@[simp] theorem mapBank_cntrValid (f : Bank → Bank) (s : State) : (s.mapBank f).cntrValid = s.cntrValid := rfl
@[simp] theorem mapBank_cntrExpired (f : Bank → Bank) (s : State) : (s.mapBank f).cntrExpired = s.cntrExpired := rfl
@[simp] theorem mapBank_cntrStack (f : Bank → Bank) (s : State) : (s.mapBank f).cntrStack = s.cntrStack := rfl
@[simp] theorem mapBank_statusStack (f : Bank → Bank) (s : State) : (s.mapBank f).statusStack = s.statusStack := rfl
@[simp] theorem mapBank_astat (f : Bank → Bank) (s : State) : (s.mapBank f).astat = s.astat := rfl
@[simp] theorem mapBank_mstat (f : Bank → Bank) (s : State) : (s.mapBank f).mstat = s.mstat := rfl
@[simp] theorem mapBank_pso (f : Bank → Bank) (s : State) : (s.mapBank f).pso = s.pso := rfl
@[simp] theorem mapBank_cso (f : Bank → Bank) (s : State) : (s.mapBank f).cso = s.cso := rfl
@[simp] theorem mapBank_sso (f : Bank → Bank) (s : State) : (s.mapBank f).sso = s.sso := rfl
@[simp] theorem mapBank_lso (f : Bank → Bank) (s : State) : (s.mapBank f).lso = s.lso := rfl
@[simp] theorem mapBank_imask (f : Bank → Bank) (s : State) : (s.mapBank f).imask = s.imask := rfl
@[simp] theorem mapBank_icntl (f : Bank → Bank) (s : State) : (s.mapBank f).icntl = s.icntl := rfl
@[simp] theorem mapBank_intsEn (f : Bank → Bank) (s : State) : (s.mapBank f).intsEn = s.intsEn := rfl
@[simp] theorem mapBank_irqPending (f : Bank → Bank) (s : State) : (s.mapBank f).irqPending = s.irqPending := rfl
@[simp] theorem mapBank_fiLatch (f : Bank → Bank) (s : State) : (s.mapBank f).fiLatch = s.fiLatch := rfl
@[simp] theorem mapBank_flagOut (f : Bank → Bank) (s : State) : (s.mapBank f).flagOut = s.flagOut := rfl
@[simp] theorem mapBank_fl0 (f : Bank → Bank) (s : State) : (s.mapBank f).fl0 = s.fl0 := rfl
@[simp] theorem mapBank_fl1 (f : Bank → Bank) (s : State) : (s.mapBank f).fl1 = s.fl1 := rfl
@[simp] theorem mapBank_fl2 (f : Bank → Bank) (s : State) : (s.mapBank f).fl2 = s.fl2 := rfl
@[simp] theorem mapBank_pcPopPending (f : Bank → Bank) (s : State) : (s.mapBank f).pcPopPending = s.pcPopPending := rfl
@[simp] theorem mapBank_idle (f : Bank → Bank) (s : State) : (s.mapBank f).idle = s.idle := rfl
@[simp] theorem mapBank_idleDiv (f : Bank → Bank) (s : State) : (s.mapBank f).idleDiv = s.idleDiv := rfl
@[simp] theorem mapBank_pm (f : Bank → Bank) (s : State) : (s.mapBank f).pm = s.pm := rfl
@[simp] theorem mapBank_dm (f : Bank → Bank) (s : State) : (s.mapBank f).dm = s.dm := rfl
@[simp] theorem mapBank_pmDirty (f : Bank → Bank) (s : State) : (s.mapBank f).pmDirty = s.pmDirty := rfl
@[simp] theorem mapBank_draws (f : Bank → Bank) (s : State) : (s.mapBank f).draws = s.draws := rfl
@[simp] theorem mapBank_events (f : Bank → Bank) (s : State) : (s.mapBank f).events = s.events := rfl
@[simp] theorem mapBank_irqInputs (f : Bank → Bank) (s : State) : (s.mapBank f).irqInputs = s.irqInputs := rfl

/-! ## drawn -/

@[simp] theorem drawn_cfg (s : State) : (s.drawn).cfg = s.cfg := rfl
@[simp] theorem drawn_prim (s : State) : (s.drawn).prim = s.prim := rfl
@[simp] theorem drawn_sec (s : State) : (s.drawn).sec = s.sec := rfl
@[simp] theorem drawn_ireg (s : State) : (s.drawn).ireg = s.ireg := rfl
@[simp] theorem drawn_mreg (s : State) : (s.drawn).mreg = s.mreg := rfl
@[simp] theorem drawn_lreg (s : State) : (s.drawn).lreg = s.lreg := rfl
@[simp] theorem drawn_px (s : State) : (s.drawn).px = s.px := rfl
@[simp] theorem drawn_pc (s : State) : (s.drawn).pc = s.pc := rfl
@[simp] theorem drawn_pcStack (s : State) : (s.drawn).pcStack = s.pcStack := rfl
@[simp] theorem drawn_loopStack (s : State) : (s.drawn).loopStack = s.loopStack := rfl
@[simp] theorem drawn_cntr (s : State) : (s.drawn).cntr = s.cntr := rfl
@[simp] theorem drawn_cntrValid (s : State) : (s.drawn).cntrValid = s.cntrValid := rfl
@[simp] theorem drawn_cntrExpired (s : State) : (s.drawn).cntrExpired = s.cntrExpired := rfl
@[simp] theorem drawn_cntrStack (s : State) : (s.drawn).cntrStack = s.cntrStack := rfl
@[simp] theorem drawn_statusStack (s : State) : (s.drawn).statusStack = s.statusStack := rfl
@[simp] theorem drawn_astat (s : State) : (s.drawn).astat = s.astat := rfl
@[simp] theorem drawn_mstat (s : State) : (s.drawn).mstat = s.mstat := rfl
@[simp] theorem drawn_pso (s : State) : (s.drawn).pso = s.pso := rfl
@[simp] theorem drawn_cso (s : State) : (s.drawn).cso = s.cso := rfl
@[simp] theorem drawn_sso (s : State) : (s.drawn).sso = s.sso := rfl
@[simp] theorem drawn_lso (s : State) : (s.drawn).lso = s.lso := rfl
@[simp] theorem drawn_imask (s : State) : (s.drawn).imask = s.imask := rfl
@[simp] theorem drawn_icntl (s : State) : (s.drawn).icntl = s.icntl := rfl
@[simp] theorem drawn_intsEn (s : State) : (s.drawn).intsEn = s.intsEn := rfl
@[simp] theorem drawn_irqPending (s : State) : (s.drawn).irqPending = s.irqPending := rfl
@[simp] theorem drawn_fiLatch (s : State) : (s.drawn).fiLatch = s.fiLatch := rfl
@[simp] theorem drawn_flagOut (s : State) : (s.drawn).flagOut = s.flagOut := rfl
@[simp] theorem drawn_fl0 (s : State) : (s.drawn).fl0 = s.fl0 := rfl
@[simp] theorem drawn_fl1 (s : State) : (s.drawn).fl1 = s.fl1 := rfl
@[simp] theorem drawn_fl2 (s : State) : (s.drawn).fl2 = s.fl2 := rfl
@[simp] theorem drawn_pcPopPending (s : State) : (s.drawn).pcPopPending = s.pcPopPending := rfl
@[simp] theorem drawn_idle (s : State) : (s.drawn).idle = s.idle := rfl
@[simp] theorem drawn_idleDiv (s : State) : (s.drawn).idleDiv = s.idleDiv := rfl
@[simp] theorem drawn_pm (s : State) : (s.drawn).pm = s.pm := rfl
@[simp] theorem drawn_dm (s : State) : (s.drawn).dm = s.dm := rfl
@[simp] theorem drawn_pmDirty (s : State) : (s.drawn).pmDirty = s.pmDirty := rfl
@[simp] theorem drawn_events (s : State) : (s.drawn).events = s.events := rfl
@[simp] theorem drawn_irqInputs (s : State) : (s.drawn).irqInputs = s.irqInputs := rfl

/-! ## emit -/

@[simp] theorem emit_cfg (e : Event) (s : State) : (s.emit e).cfg = s.cfg := rfl
@[simp] theorem emit_prim (e : Event) (s : State) : (s.emit e).prim = s.prim := rfl
@[simp] theorem emit_sec (e : Event) (s : State) : (s.emit e).sec = s.sec := rfl
@[simp] theorem emit_ireg (e : Event) (s : State) : (s.emit e).ireg = s.ireg := rfl
@[simp] theorem emit_mreg (e : Event) (s : State) : (s.emit e).mreg = s.mreg := rfl
@[simp] theorem emit_lreg (e : Event) (s : State) : (s.emit e).lreg = s.lreg := rfl
@[simp] theorem emit_px (e : Event) (s : State) : (s.emit e).px = s.px := rfl
@[simp] theorem emit_pc (e : Event) (s : State) : (s.emit e).pc = s.pc := rfl
@[simp] theorem emit_pcStack (e : Event) (s : State) : (s.emit e).pcStack = s.pcStack := rfl
@[simp] theorem emit_loopStack (e : Event) (s : State) : (s.emit e).loopStack = s.loopStack := rfl
@[simp] theorem emit_cntr (e : Event) (s : State) : (s.emit e).cntr = s.cntr := rfl
@[simp] theorem emit_cntrValid (e : Event) (s : State) : (s.emit e).cntrValid = s.cntrValid := rfl
@[simp] theorem emit_cntrExpired (e : Event) (s : State) : (s.emit e).cntrExpired = s.cntrExpired := rfl
@[simp] theorem emit_cntrStack (e : Event) (s : State) : (s.emit e).cntrStack = s.cntrStack := rfl
@[simp] theorem emit_statusStack (e : Event) (s : State) : (s.emit e).statusStack = s.statusStack := rfl
@[simp] theorem emit_astat (e : Event) (s : State) : (s.emit e).astat = s.astat := rfl
@[simp] theorem emit_mstat (e : Event) (s : State) : (s.emit e).mstat = s.mstat := rfl
@[simp] theorem emit_pso (e : Event) (s : State) : (s.emit e).pso = s.pso := rfl
@[simp] theorem emit_cso (e : Event) (s : State) : (s.emit e).cso = s.cso := rfl
@[simp] theorem emit_sso (e : Event) (s : State) : (s.emit e).sso = s.sso := rfl
@[simp] theorem emit_lso (e : Event) (s : State) : (s.emit e).lso = s.lso := rfl
@[simp] theorem emit_imask (e : Event) (s : State) : (s.emit e).imask = s.imask := rfl
@[simp] theorem emit_icntl (e : Event) (s : State) : (s.emit e).icntl = s.icntl := rfl
@[simp] theorem emit_intsEn (e : Event) (s : State) : (s.emit e).intsEn = s.intsEn := rfl
@[simp] theorem emit_irqPending (e : Event) (s : State) : (s.emit e).irqPending = s.irqPending := rfl
@[simp] theorem emit_fiLatch (e : Event) (s : State) : (s.emit e).fiLatch = s.fiLatch := rfl
@[simp] theorem emit_flagOut (e : Event) (s : State) : (s.emit e).flagOut = s.flagOut := rfl
@[simp] theorem emit_fl0 (e : Event) (s : State) : (s.emit e).fl0 = s.fl0 := rfl
@[simp] theorem emit_fl1 (e : Event) (s : State) : (s.emit e).fl1 = s.fl1 := rfl
@[simp] theorem emit_fl2 (e : Event) (s : State) : (s.emit e).fl2 = s.fl2 := rfl
@[simp] theorem emit_pcPopPending (e : Event) (s : State) : (s.emit e).pcPopPending = s.pcPopPending := rfl
@[simp] theorem emit_idle (e : Event) (s : State) : (s.emit e).idle = s.idle := rfl
@[simp] theorem emit_idleDiv (e : Event) (s : State) : (s.emit e).idleDiv = s.idleDiv := rfl
@[simp] theorem emit_pm (e : Event) (s : State) : (s.emit e).pm = s.pm := rfl
@[simp] theorem emit_dm (e : Event) (s : State) : (s.emit e).dm = s.dm := rfl
@[simp] theorem emit_pmDirty (e : Event) (s : State) : (s.emit e).pmDirty = s.pmDirty := rfl
@[simp] theorem emit_draws (e : Event) (s : State) : (s.emit e).draws = s.draws := rfl
@[simp] theorem emit_irqInputs (e : Event) (s : State) : (s.emit e).irqInputs = s.irqInputs := rfl

/-! ## setI -/

@[simp] theorem setI_cfg (g : Dag) (i : Fin 4) (a : Addr) (s : State) : (setI g i a s).cfg = s.cfg := rfl
@[simp] theorem setI_prim (g : Dag) (i : Fin 4) (a : Addr) (s : State) : (setI g i a s).prim = s.prim := rfl
@[simp] theorem setI_sec (g : Dag) (i : Fin 4) (a : Addr) (s : State) : (setI g i a s).sec = s.sec := rfl
@[simp] theorem setI_mreg (g : Dag) (i : Fin 4) (a : Addr) (s : State) : (setI g i a s).mreg = s.mreg := rfl
@[simp] theorem setI_lreg (g : Dag) (i : Fin 4) (a : Addr) (s : State) : (setI g i a s).lreg = s.lreg := rfl
@[simp] theorem setI_px (g : Dag) (i : Fin 4) (a : Addr) (s : State) : (setI g i a s).px = s.px := rfl
@[simp] theorem setI_pc (g : Dag) (i : Fin 4) (a : Addr) (s : State) : (setI g i a s).pc = s.pc := rfl
@[simp] theorem setI_pcStack (g : Dag) (i : Fin 4) (a : Addr) (s : State) : (setI g i a s).pcStack = s.pcStack := rfl
@[simp] theorem setI_loopStack (g : Dag) (i : Fin 4) (a : Addr) (s : State) : (setI g i a s).loopStack = s.loopStack := rfl
@[simp] theorem setI_cntr (g : Dag) (i : Fin 4) (a : Addr) (s : State) : (setI g i a s).cntr = s.cntr := rfl
@[simp] theorem setI_cntrValid (g : Dag) (i : Fin 4) (a : Addr) (s : State) : (setI g i a s).cntrValid = s.cntrValid := rfl
@[simp] theorem setI_cntrExpired (g : Dag) (i : Fin 4) (a : Addr) (s : State) : (setI g i a s).cntrExpired = s.cntrExpired := rfl
@[simp] theorem setI_cntrStack (g : Dag) (i : Fin 4) (a : Addr) (s : State) : (setI g i a s).cntrStack = s.cntrStack := rfl
@[simp] theorem setI_statusStack (g : Dag) (i : Fin 4) (a : Addr) (s : State) : (setI g i a s).statusStack = s.statusStack := rfl
@[simp] theorem setI_astat (g : Dag) (i : Fin 4) (a : Addr) (s : State) : (setI g i a s).astat = s.astat := rfl
@[simp] theorem setI_mstat (g : Dag) (i : Fin 4) (a : Addr) (s : State) : (setI g i a s).mstat = s.mstat := rfl
@[simp] theorem setI_pso (g : Dag) (i : Fin 4) (a : Addr) (s : State) : (setI g i a s).pso = s.pso := rfl
@[simp] theorem setI_cso (g : Dag) (i : Fin 4) (a : Addr) (s : State) : (setI g i a s).cso = s.cso := rfl
@[simp] theorem setI_sso (g : Dag) (i : Fin 4) (a : Addr) (s : State) : (setI g i a s).sso = s.sso := rfl
@[simp] theorem setI_lso (g : Dag) (i : Fin 4) (a : Addr) (s : State) : (setI g i a s).lso = s.lso := rfl
@[simp] theorem setI_imask (g : Dag) (i : Fin 4) (a : Addr) (s : State) : (setI g i a s).imask = s.imask := rfl
@[simp] theorem setI_icntl (g : Dag) (i : Fin 4) (a : Addr) (s : State) : (setI g i a s).icntl = s.icntl := rfl
@[simp] theorem setI_intsEn (g : Dag) (i : Fin 4) (a : Addr) (s : State) : (setI g i a s).intsEn = s.intsEn := rfl
@[simp] theorem setI_irqPending (g : Dag) (i : Fin 4) (a : Addr) (s : State) : (setI g i a s).irqPending = s.irqPending := rfl
@[simp] theorem setI_fiLatch (g : Dag) (i : Fin 4) (a : Addr) (s : State) : (setI g i a s).fiLatch = s.fiLatch := rfl
@[simp] theorem setI_flagOut (g : Dag) (i : Fin 4) (a : Addr) (s : State) : (setI g i a s).flagOut = s.flagOut := rfl
@[simp] theorem setI_fl0 (g : Dag) (i : Fin 4) (a : Addr) (s : State) : (setI g i a s).fl0 = s.fl0 := rfl
@[simp] theorem setI_fl1 (g : Dag) (i : Fin 4) (a : Addr) (s : State) : (setI g i a s).fl1 = s.fl1 := rfl
@[simp] theorem setI_fl2 (g : Dag) (i : Fin 4) (a : Addr) (s : State) : (setI g i a s).fl2 = s.fl2 := rfl
@[simp] theorem setI_pcPopPending (g : Dag) (i : Fin 4) (a : Addr) (s : State) : (setI g i a s).pcPopPending = s.pcPopPending := rfl
@[simp] theorem setI_idle (g : Dag) (i : Fin 4) (a : Addr) (s : State) : (setI g i a s).idle = s.idle := rfl
@[simp] theorem setI_idleDiv (g : Dag) (i : Fin 4) (a : Addr) (s : State) : (setI g i a s).idleDiv = s.idleDiv := rfl
@[simp] theorem setI_pm (g : Dag) (i : Fin 4) (a : Addr) (s : State) : (setI g i a s).pm = s.pm := rfl
@[simp] theorem setI_dm (g : Dag) (i : Fin 4) (a : Addr) (s : State) : (setI g i a s).dm = s.dm := rfl
@[simp] theorem setI_pmDirty (g : Dag) (i : Fin 4) (a : Addr) (s : State) : (setI g i a s).pmDirty = s.pmDirty := rfl
@[simp] theorem setI_draws (g : Dag) (i : Fin 4) (a : Addr) (s : State) : (setI g i a s).draws = s.draws := rfl
@[simp] theorem setI_events (g : Dag) (i : Fin 4) (a : Addr) (s : State) : (setI g i a s).events = s.events := rfl
@[simp] theorem setI_irqInputs (g : Dag) (i : Fin 4) (a : Addr) (s : State) : (setI g i a s).irqInputs = s.irqInputs := rfl

/-! ## setAluFlags -/

@[simp] theorem setAluFlags_cfg (o : AluOut) (s : State) : (setAluFlags o s).cfg = s.cfg := rfl
@[simp] theorem setAluFlags_prim (o : AluOut) (s : State) : (setAluFlags o s).prim = s.prim := rfl
@[simp] theorem setAluFlags_sec (o : AluOut) (s : State) : (setAluFlags o s).sec = s.sec := rfl
@[simp] theorem setAluFlags_ireg (o : AluOut) (s : State) : (setAluFlags o s).ireg = s.ireg := rfl
@[simp] theorem setAluFlags_mreg (o : AluOut) (s : State) : (setAluFlags o s).mreg = s.mreg := rfl
@[simp] theorem setAluFlags_lreg (o : AluOut) (s : State) : (setAluFlags o s).lreg = s.lreg := rfl
@[simp] theorem setAluFlags_px (o : AluOut) (s : State) : (setAluFlags o s).px = s.px := rfl
@[simp] theorem setAluFlags_pc (o : AluOut) (s : State) : (setAluFlags o s).pc = s.pc := rfl
@[simp] theorem setAluFlags_pcStack (o : AluOut) (s : State) : (setAluFlags o s).pcStack = s.pcStack := rfl
@[simp] theorem setAluFlags_loopStack (o : AluOut) (s : State) : (setAluFlags o s).loopStack = s.loopStack := rfl
@[simp] theorem setAluFlags_cntr (o : AluOut) (s : State) : (setAluFlags o s).cntr = s.cntr := rfl
@[simp] theorem setAluFlags_cntrValid (o : AluOut) (s : State) : (setAluFlags o s).cntrValid = s.cntrValid := rfl
@[simp] theorem setAluFlags_cntrExpired (o : AluOut) (s : State) : (setAluFlags o s).cntrExpired = s.cntrExpired := rfl
@[simp] theorem setAluFlags_cntrStack (o : AluOut) (s : State) : (setAluFlags o s).cntrStack = s.cntrStack := rfl
@[simp] theorem setAluFlags_statusStack (o : AluOut) (s : State) : (setAluFlags o s).statusStack = s.statusStack := rfl
@[simp] theorem setAluFlags_mstat (o : AluOut) (s : State) : (setAluFlags o s).mstat = s.mstat := rfl
@[simp] theorem setAluFlags_pso (o : AluOut) (s : State) : (setAluFlags o s).pso = s.pso := rfl
@[simp] theorem setAluFlags_cso (o : AluOut) (s : State) : (setAluFlags o s).cso = s.cso := rfl
@[simp] theorem setAluFlags_sso (o : AluOut) (s : State) : (setAluFlags o s).sso = s.sso := rfl
@[simp] theorem setAluFlags_lso (o : AluOut) (s : State) : (setAluFlags o s).lso = s.lso := rfl
@[simp] theorem setAluFlags_imask (o : AluOut) (s : State) : (setAluFlags o s).imask = s.imask := rfl
@[simp] theorem setAluFlags_icntl (o : AluOut) (s : State) : (setAluFlags o s).icntl = s.icntl := rfl
@[simp] theorem setAluFlags_intsEn (o : AluOut) (s : State) : (setAluFlags o s).intsEn = s.intsEn := rfl
@[simp] theorem setAluFlags_irqPending (o : AluOut) (s : State) : (setAluFlags o s).irqPending = s.irqPending := rfl
@[simp] theorem setAluFlags_fiLatch (o : AluOut) (s : State) : (setAluFlags o s).fiLatch = s.fiLatch := rfl
@[simp] theorem setAluFlags_flagOut (o : AluOut) (s : State) : (setAluFlags o s).flagOut = s.flagOut := rfl
@[simp] theorem setAluFlags_fl0 (o : AluOut) (s : State) : (setAluFlags o s).fl0 = s.fl0 := rfl
@[simp] theorem setAluFlags_fl1 (o : AluOut) (s : State) : (setAluFlags o s).fl1 = s.fl1 := rfl
@[simp] theorem setAluFlags_fl2 (o : AluOut) (s : State) : (setAluFlags o s).fl2 = s.fl2 := rfl
@[simp] theorem setAluFlags_pcPopPending (o : AluOut) (s : State) : (setAluFlags o s).pcPopPending = s.pcPopPending := rfl
@[simp] theorem setAluFlags_idle (o : AluOut) (s : State) : (setAluFlags o s).idle = s.idle := rfl
@[simp] theorem setAluFlags_idleDiv (o : AluOut) (s : State) : (setAluFlags o s).idleDiv = s.idleDiv := rfl
@[simp] theorem setAluFlags_pm (o : AluOut) (s : State) : (setAluFlags o s).pm = s.pm := rfl
@[simp] theorem setAluFlags_dm (o : AluOut) (s : State) : (setAluFlags o s).dm = s.dm := rfl
@[simp] theorem setAluFlags_pmDirty (o : AluOut) (s : State) : (setAluFlags o s).pmDirty = s.pmDirty := rfl
@[simp] theorem setAluFlags_draws (o : AluOut) (s : State) : (setAluFlags o s).draws = s.draws := rfl
@[simp] theorem setAluFlags_events (o : AluOut) (s : State) : (setAluFlags o s).events = s.events := rfl
@[simp] theorem setAluFlags_irqInputs (o : AluOut) (s : State) : (setAluFlags o s).irqInputs = s.irqInputs := rfl

/-! ## overwriteCntr -/

@[simp] theorem overwriteCntr_cfg (v : Addr) (s : State) : (overwriteCntr v s).cfg = s.cfg := rfl
@[simp] theorem overwriteCntr_prim (v : Addr) (s : State) : (overwriteCntr v s).prim = s.prim := rfl
@[simp] theorem overwriteCntr_sec (v : Addr) (s : State) : (overwriteCntr v s).sec = s.sec := rfl
@[simp] theorem overwriteCntr_ireg (v : Addr) (s : State) : (overwriteCntr v s).ireg = s.ireg := rfl
@[simp] theorem overwriteCntr_mreg (v : Addr) (s : State) : (overwriteCntr v s).mreg = s.mreg := rfl
@[simp] theorem overwriteCntr_lreg (v : Addr) (s : State) : (overwriteCntr v s).lreg = s.lreg := rfl
@[simp] theorem overwriteCntr_px (v : Addr) (s : State) : (overwriteCntr v s).px = s.px := rfl
@[simp] theorem overwriteCntr_pc (v : Addr) (s : State) : (overwriteCntr v s).pc = s.pc := rfl
@[simp] theorem overwriteCntr_pcStack (v : Addr) (s : State) : (overwriteCntr v s).pcStack = s.pcStack := rfl
@[simp] theorem overwriteCntr_loopStack (v : Addr) (s : State) : (overwriteCntr v s).loopStack = s.loopStack := rfl
@[simp] theorem overwriteCntr_cntrStack (v : Addr) (s : State) : (overwriteCntr v s).cntrStack = s.cntrStack := rfl
@[simp] theorem overwriteCntr_statusStack (v : Addr) (s : State) : (overwriteCntr v s).statusStack = s.statusStack := rfl
@[simp] theorem overwriteCntr_astat (v : Addr) (s : State) : (overwriteCntr v s).astat = s.astat := rfl
@[simp] theorem overwriteCntr_mstat (v : Addr) (s : State) : (overwriteCntr v s).mstat = s.mstat := rfl
@[simp] theorem overwriteCntr_pso (v : Addr) (s : State) : (overwriteCntr v s).pso = s.pso := rfl
@[simp] theorem overwriteCntr_cso (v : Addr) (s : State) : (overwriteCntr v s).cso = s.cso := rfl
@[simp] theorem overwriteCntr_sso (v : Addr) (s : State) : (overwriteCntr v s).sso = s.sso := rfl
@[simp] theorem overwriteCntr_lso (v : Addr) (s : State) : (overwriteCntr v s).lso = s.lso := rfl
@[simp] theorem overwriteCntr_imask (v : Addr) (s : State) : (overwriteCntr v s).imask = s.imask := rfl
@[simp] theorem overwriteCntr_icntl (v : Addr) (s : State) : (overwriteCntr v s).icntl = s.icntl := rfl
@[simp] theorem overwriteCntr_intsEn (v : Addr) (s : State) : (overwriteCntr v s).intsEn = s.intsEn := rfl
@[simp] theorem overwriteCntr_irqPending (v : Addr) (s : State) : (overwriteCntr v s).irqPending = s.irqPending := rfl
@[simp] theorem overwriteCntr_fiLatch (v : Addr) (s : State) : (overwriteCntr v s).fiLatch = s.fiLatch := rfl
@[simp] theorem overwriteCntr_flagOut (v : Addr) (s : State) : (overwriteCntr v s).flagOut = s.flagOut := rfl
@[simp] theorem overwriteCntr_fl0 (v : Addr) (s : State) : (overwriteCntr v s).fl0 = s.fl0 := rfl
@[simp] theorem overwriteCntr_fl1 (v : Addr) (s : State) : (overwriteCntr v s).fl1 = s.fl1 := rfl
@[simp] theorem overwriteCntr_fl2 (v : Addr) (s : State) : (overwriteCntr v s).fl2 = s.fl2 := rfl
@[simp] theorem overwriteCntr_pcPopPending (v : Addr) (s : State) : (overwriteCntr v s).pcPopPending = s.pcPopPending := rfl
@[simp] theorem overwriteCntr_idle (v : Addr) (s : State) : (overwriteCntr v s).idle = s.idle := rfl
@[simp] theorem overwriteCntr_idleDiv (v : Addr) (s : State) : (overwriteCntr v s).idleDiv = s.idleDiv := rfl
@[simp] theorem overwriteCntr_pm (v : Addr) (s : State) : (overwriteCntr v s).pm = s.pm := rfl
@[simp] theorem overwriteCntr_dm (v : Addr) (s : State) : (overwriteCntr v s).dm = s.dm := rfl
@[simp] theorem overwriteCntr_pmDirty (v : Addr) (s : State) : (overwriteCntr v s).pmDirty = s.pmDirty := rfl
@[simp] theorem overwriteCntr_draws (v : Addr) (s : State) : (overwriteCntr v s).draws = s.draws := rfl
@[simp] theorem overwriteCntr_events (v : Addr) (s : State) : (overwriteCntr v s).events = s.events := rfl
@[simp] theorem overwriteCntr_irqInputs (v : Addr) (s : State) : (overwriteCntr v s).irqInputs = s.irqInputs := rfl

/-! ## writeIfc -/

@[simp] theorem writeIfc_cfg (v : Word) (s : State) : (writeIfc v s).cfg = s.cfg := rfl
@[simp] theorem writeIfc_prim (v : Word) (s : State) : (writeIfc v s).prim = s.prim := rfl
@[simp] theorem writeIfc_sec (v : Word) (s : State) : (writeIfc v s).sec = s.sec := rfl
@[simp] theorem writeIfc_ireg (v : Word) (s : State) : (writeIfc v s).ireg = s.ireg := rfl
@[simp] theorem writeIfc_mreg (v : Word) (s : State) : (writeIfc v s).mreg = s.mreg := rfl
@[simp] theorem writeIfc_lreg (v : Word) (s : State) : (writeIfc v s).lreg = s.lreg := rfl
@[simp] theorem writeIfc_px (v : Word) (s : State) : (writeIfc v s).px = s.px := rfl
@[simp] theorem writeIfc_pc (v : Word) (s : State) : (writeIfc v s).pc = s.pc := rfl
@[simp] theorem writeIfc_pcStack (v : Word) (s : State) : (writeIfc v s).pcStack = s.pcStack := rfl
@[simp] theorem writeIfc_loopStack (v : Word) (s : State) : (writeIfc v s).loopStack = s.loopStack := rfl
@[simp] theorem writeIfc_cntr (v : Word) (s : State) : (writeIfc v s).cntr = s.cntr := rfl
@[simp] theorem writeIfc_cntrValid (v : Word) (s : State) : (writeIfc v s).cntrValid = s.cntrValid := rfl
@[simp] theorem writeIfc_cntrExpired (v : Word) (s : State) : (writeIfc v s).cntrExpired = s.cntrExpired := rfl
@[simp] theorem writeIfc_cntrStack (v : Word) (s : State) : (writeIfc v s).cntrStack = s.cntrStack := rfl
@[simp] theorem writeIfc_statusStack (v : Word) (s : State) : (writeIfc v s).statusStack = s.statusStack := rfl
@[simp] theorem writeIfc_astat (v : Word) (s : State) : (writeIfc v s).astat = s.astat := rfl
@[simp] theorem writeIfc_mstat (v : Word) (s : State) : (writeIfc v s).mstat = s.mstat := rfl
@[simp] theorem writeIfc_pso (v : Word) (s : State) : (writeIfc v s).pso = s.pso := rfl
@[simp] theorem writeIfc_cso (v : Word) (s : State) : (writeIfc v s).cso = s.cso := rfl
@[simp] theorem writeIfc_sso (v : Word) (s : State) : (writeIfc v s).sso = s.sso := rfl
@[simp] theorem writeIfc_lso (v : Word) (s : State) : (writeIfc v s).lso = s.lso := rfl
@[simp] theorem writeIfc_imask (v : Word) (s : State) : (writeIfc v s).imask = s.imask := rfl
@[simp] theorem writeIfc_icntl (v : Word) (s : State) : (writeIfc v s).icntl = s.icntl := rfl
@[simp] theorem writeIfc_intsEn (v : Word) (s : State) : (writeIfc v s).intsEn = s.intsEn := rfl
@[simp] theorem writeIfc_fiLatch (v : Word) (s : State) : (writeIfc v s).fiLatch = s.fiLatch := rfl
@[simp] theorem writeIfc_flagOut (v : Word) (s : State) : (writeIfc v s).flagOut = s.flagOut := rfl
@[simp] theorem writeIfc_fl0 (v : Word) (s : State) : (writeIfc v s).fl0 = s.fl0 := rfl
@[simp] theorem writeIfc_fl1 (v : Word) (s : State) : (writeIfc v s).fl1 = s.fl1 := rfl
@[simp] theorem writeIfc_fl2 (v : Word) (s : State) : (writeIfc v s).fl2 = s.fl2 := rfl
@[simp] theorem writeIfc_pcPopPending (v : Word) (s : State) : (writeIfc v s).pcPopPending = s.pcPopPending := rfl
@[simp] theorem writeIfc_idle (v : Word) (s : State) : (writeIfc v s).idle = s.idle := rfl
@[simp] theorem writeIfc_idleDiv (v : Word) (s : State) : (writeIfc v s).idleDiv = s.idleDiv := rfl
@[simp] theorem writeIfc_pm (v : Word) (s : State) : (writeIfc v s).pm = s.pm := rfl
@[simp] theorem writeIfc_dm (v : Word) (s : State) : (writeIfc v s).dm = s.dm := rfl
@[simp] theorem writeIfc_pmDirty (v : Word) (s : State) : (writeIfc v s).pmDirty = s.pmDirty := rfl
@[simp] theorem writeIfc_draws (v : Word) (s : State) : (writeIfc v s).draws = s.draws := rfl
@[simp] theorem writeIfc_irqInputs (v : Word) (s : State) : (writeIfc v s).irqInputs = s.irqInputs := rfl

@[simp] theorem drawn_draws (s : State) : s.drawn.draws = s.draws + 1 := rfl
@[simp] theorem emit_events (e : Event) (s : State) : (s.emit e).events = e :: s.events := rfl

/-! ## The selected bank -/

/-- A bank update changes the selected bank by its function. -/
@[simp] theorem bank_mapBank (f : Bank → Bank) (s : State) : (s.mapBank f).bank = f s.bank := by
  unfold State.mapBank State.bank
  split <;> simp [*]

@[simp] theorem bank_drawn (s : State) : s.drawn.bank = s.bank := rfl
@[simp] theorem bank_emit (e : Event) (s : State) : (s.emit e).bank = s.bank := rfl
@[simp] theorem bank_setI (g : Dag) (i : Fin 4) (a : Addr) (s : State) : (setI g i a s).bank = s.bank := rfl
@[simp] theorem bank_setAluFlags (o : AluOut) (s : State) : (setAluFlags o s).bank = s.bank := rfl

/-- Two bank updates are one. -/
theorem mapBank_mapBank (f g : Bank → Bank) (s : State) :
    (s.mapBank f).mapBank g = s.mapBank fun b => g (f b) := by
  simp only [State.mapBank]
  split <;> rfl

/-! ## ceTick -/

@[simp] theorem ceTick_cfg (s : State) : (ceTick s).cfg = s.cfg := by
  unfold ceTick; split <;> (try split) <;> rfl
@[simp] theorem ceTick_prim (s : State) : (ceTick s).prim = s.prim := by
  unfold ceTick; split <;> (try split) <;> rfl
@[simp] theorem ceTick_sec (s : State) : (ceTick s).sec = s.sec := by
  unfold ceTick; split <;> (try split) <;> rfl
@[simp] theorem ceTick_ireg (s : State) : (ceTick s).ireg = s.ireg := by
  unfold ceTick; split <;> (try split) <;> rfl
@[simp] theorem ceTick_mreg (s : State) : (ceTick s).mreg = s.mreg := by
  unfold ceTick; split <;> (try split) <;> rfl
@[simp] theorem ceTick_lreg (s : State) : (ceTick s).lreg = s.lreg := by
  unfold ceTick; split <;> (try split) <;> rfl
@[simp] theorem ceTick_px (s : State) : (ceTick s).px = s.px := by
  unfold ceTick; split <;> (try split) <;> rfl
@[simp] theorem ceTick_pc (s : State) : (ceTick s).pc = s.pc := by
  unfold ceTick; split <;> (try split) <;> rfl
@[simp] theorem ceTick_pcStack (s : State) : (ceTick s).pcStack = s.pcStack := by
  unfold ceTick; split <;> (try split) <;> rfl
@[simp] theorem ceTick_loopStack (s : State) : (ceTick s).loopStack = s.loopStack := by
  unfold ceTick; split <;> (try split) <;> rfl
@[simp] theorem ceTick_statusStack (s : State) : (ceTick s).statusStack = s.statusStack := by
  unfold ceTick; split <;> (try split) <;> rfl
@[simp] theorem ceTick_astat (s : State) : (ceTick s).astat = s.astat := by
  unfold ceTick; split <;> (try split) <;> rfl
@[simp] theorem ceTick_mstat (s : State) : (ceTick s).mstat = s.mstat := by
  unfold ceTick; split <;> (try split) <;> rfl
@[simp] theorem ceTick_pso (s : State) : (ceTick s).pso = s.pso := by
  unfold ceTick; split <;> (try split) <;> rfl
@[simp] theorem ceTick_cso (s : State) : (ceTick s).cso = s.cso := by
  unfold ceTick; split <;> (try split) <;> rfl
@[simp] theorem ceTick_sso (s : State) : (ceTick s).sso = s.sso := by
  unfold ceTick; split <;> (try split) <;> rfl
@[simp] theorem ceTick_lso (s : State) : (ceTick s).lso = s.lso := by
  unfold ceTick; split <;> (try split) <;> rfl
@[simp] theorem ceTick_imask (s : State) : (ceTick s).imask = s.imask := by
  unfold ceTick; split <;> (try split) <;> rfl
@[simp] theorem ceTick_icntl (s : State) : (ceTick s).icntl = s.icntl := by
  unfold ceTick; split <;> (try split) <;> rfl
@[simp] theorem ceTick_intsEn (s : State) : (ceTick s).intsEn = s.intsEn := by
  unfold ceTick; split <;> (try split) <;> rfl
@[simp] theorem ceTick_irqPending (s : State) : (ceTick s).irqPending = s.irqPending := by
  unfold ceTick; split <;> (try split) <;> rfl
@[simp] theorem ceTick_fiLatch (s : State) : (ceTick s).fiLatch = s.fiLatch := by
  unfold ceTick; split <;> (try split) <;> rfl
@[simp] theorem ceTick_flagOut (s : State) : (ceTick s).flagOut = s.flagOut := by
  unfold ceTick; split <;> (try split) <;> rfl
@[simp] theorem ceTick_fl0 (s : State) : (ceTick s).fl0 = s.fl0 := by
  unfold ceTick; split <;> (try split) <;> rfl
@[simp] theorem ceTick_fl1 (s : State) : (ceTick s).fl1 = s.fl1 := by
  unfold ceTick; split <;> (try split) <;> rfl
@[simp] theorem ceTick_fl2 (s : State) : (ceTick s).fl2 = s.fl2 := by
  unfold ceTick; split <;> (try split) <;> rfl
@[simp] theorem ceTick_pcPopPending (s : State) : (ceTick s).pcPopPending = s.pcPopPending := by
  unfold ceTick; split <;> (try split) <;> rfl
@[simp] theorem ceTick_idle (s : State) : (ceTick s).idle = s.idle := by
  unfold ceTick; split <;> (try split) <;> rfl
@[simp] theorem ceTick_idleDiv (s : State) : (ceTick s).idleDiv = s.idleDiv := by
  unfold ceTick; split <;> (try split) <;> rfl
@[simp] theorem ceTick_pm (s : State) : (ceTick s).pm = s.pm := by
  unfold ceTick; split <;> (try split) <;> rfl
@[simp] theorem ceTick_dm (s : State) : (ceTick s).dm = s.dm := by
  unfold ceTick; split <;> (try split) <;> rfl
@[simp] theorem ceTick_pmDirty (s : State) : (ceTick s).pmDirty = s.pmDirty := by
  unfold ceTick; split <;> (try split) <;> rfl
@[simp] theorem ceTick_draws (s : State) : (ceTick s).draws = s.draws := by
  unfold ceTick; split <;> (try split) <;> rfl
@[simp] theorem ceTick_events (s : State) : (ceTick s).events = s.events := by
  unfold ceTick; split <;> (try split) <;> rfl
@[simp] theorem ceTick_irqInputs (s : State) : (ceTick s).irqInputs = s.irqInputs := by
  unfold ceTick; split <;> (try split) <;> rfl

@[simp] theorem bank_ceTick (s : State) : (ceTick s).bank = s.bank := by simp [State.bank]

/-! ## A register load and the two commits: everything but what they name -/

@[simp] theorem writeDreg_cfg (d : Dreg) (v : Word) (s : State) : (writeDreg d v s).cfg = s.cfg := rfl
@[simp] theorem writeDreg_ireg (d : Dreg) (v : Word) (s : State) : (writeDreg d v s).ireg = s.ireg := rfl
@[simp] theorem writeDreg_mreg (d : Dreg) (v : Word) (s : State) : (writeDreg d v s).mreg = s.mreg := rfl
@[simp] theorem writeDreg_lreg (d : Dreg) (v : Word) (s : State) : (writeDreg d v s).lreg = s.lreg := rfl
@[simp] theorem writeDreg_px (d : Dreg) (v : Word) (s : State) : (writeDreg d v s).px = s.px := rfl
@[simp] theorem writeDreg_pc (d : Dreg) (v : Word) (s : State) : (writeDreg d v s).pc = s.pc := rfl
@[simp] theorem writeDreg_pcStack (d : Dreg) (v : Word) (s : State) : (writeDreg d v s).pcStack = s.pcStack := rfl
@[simp] theorem writeDreg_loopStack (d : Dreg) (v : Word) (s : State) : (writeDreg d v s).loopStack = s.loopStack := rfl
@[simp] theorem writeDreg_cntr (d : Dreg) (v : Word) (s : State) : (writeDreg d v s).cntr = s.cntr := rfl
@[simp] theorem writeDreg_cntrValid (d : Dreg) (v : Word) (s : State) : (writeDreg d v s).cntrValid = s.cntrValid := rfl
@[simp] theorem writeDreg_cntrExpired (d : Dreg) (v : Word) (s : State) : (writeDreg d v s).cntrExpired = s.cntrExpired := rfl
@[simp] theorem writeDreg_cntrStack (d : Dreg) (v : Word) (s : State) : (writeDreg d v s).cntrStack = s.cntrStack := rfl
@[simp] theorem writeDreg_statusStack (d : Dreg) (v : Word) (s : State) : (writeDreg d v s).statusStack = s.statusStack := rfl
@[simp] theorem writeDreg_astat (d : Dreg) (v : Word) (s : State) : (writeDreg d v s).astat = s.astat := rfl
@[simp] theorem writeDreg_mstat (d : Dreg) (v : Word) (s : State) : (writeDreg d v s).mstat = s.mstat := rfl
@[simp] theorem writeDreg_pso (d : Dreg) (v : Word) (s : State) : (writeDreg d v s).pso = s.pso := rfl
@[simp] theorem writeDreg_cso (d : Dreg) (v : Word) (s : State) : (writeDreg d v s).cso = s.cso := rfl
@[simp] theorem writeDreg_sso (d : Dreg) (v : Word) (s : State) : (writeDreg d v s).sso = s.sso := rfl
@[simp] theorem writeDreg_lso (d : Dreg) (v : Word) (s : State) : (writeDreg d v s).lso = s.lso := rfl
@[simp] theorem writeDreg_imask (d : Dreg) (v : Word) (s : State) : (writeDreg d v s).imask = s.imask := rfl
@[simp] theorem writeDreg_icntl (d : Dreg) (v : Word) (s : State) : (writeDreg d v s).icntl = s.icntl := rfl
@[simp] theorem writeDreg_intsEn (d : Dreg) (v : Word) (s : State) : (writeDreg d v s).intsEn = s.intsEn := rfl
@[simp] theorem writeDreg_irqPending (d : Dreg) (v : Word) (s : State) : (writeDreg d v s).irqPending = s.irqPending := rfl
@[simp] theorem writeDreg_fiLatch (d : Dreg) (v : Word) (s : State) : (writeDreg d v s).fiLatch = s.fiLatch := rfl
@[simp] theorem writeDreg_flagOut (d : Dreg) (v : Word) (s : State) : (writeDreg d v s).flagOut = s.flagOut := rfl
@[simp] theorem writeDreg_fl0 (d : Dreg) (v : Word) (s : State) : (writeDreg d v s).fl0 = s.fl0 := rfl
@[simp] theorem writeDreg_fl1 (d : Dreg) (v : Word) (s : State) : (writeDreg d v s).fl1 = s.fl1 := rfl
@[simp] theorem writeDreg_fl2 (d : Dreg) (v : Word) (s : State) : (writeDreg d v s).fl2 = s.fl2 := rfl
@[simp] theorem writeDreg_pcPopPending (d : Dreg) (v : Word) (s : State) : (writeDreg d v s).pcPopPending = s.pcPopPending := rfl
@[simp] theorem writeDreg_idle (d : Dreg) (v : Word) (s : State) : (writeDreg d v s).idle = s.idle := rfl
@[simp] theorem writeDreg_idleDiv (d : Dreg) (v : Word) (s : State) : (writeDreg d v s).idleDiv = s.idleDiv := rfl
@[simp] theorem writeDreg_pm (d : Dreg) (v : Word) (s : State) : (writeDreg d v s).pm = s.pm := rfl
@[simp] theorem writeDreg_dm (d : Dreg) (v : Word) (s : State) : (writeDreg d v s).dm = s.dm := rfl
@[simp] theorem writeDreg_pmDirty (d : Dreg) (v : Word) (s : State) : (writeDreg d v s).pmDirty = s.pmDirty := rfl
@[simp] theorem writeDreg_draws (d : Dreg) (v : Word) (s : State) : (writeDreg d v s).draws = s.draws := rfl
@[simp] theorem writeDreg_events (d : Dreg) (v : Word) (s : State) : (writeDreg d v s).events = s.events := rfl
@[simp] theorem writeDreg_irqInputs (d : Dreg) (v : Word) (s : State) : (writeDreg d v s).irqInputs = s.irqInputs := rfl

@[simp] theorem commitAlu_cfg (z : Dest) (o : AluOut) (s : State) : (commitAlu z o s).cfg = s.cfg := by cases z <;> rfl
@[simp] theorem commitAlu_ireg (z : Dest) (o : AluOut) (s : State) : (commitAlu z o s).ireg = s.ireg := by cases z <;> rfl
@[simp] theorem commitAlu_mreg (z : Dest) (o : AluOut) (s : State) : (commitAlu z o s).mreg = s.mreg := by cases z <;> rfl
@[simp] theorem commitAlu_lreg (z : Dest) (o : AluOut) (s : State) : (commitAlu z o s).lreg = s.lreg := by cases z <;> rfl
@[simp] theorem commitAlu_px (z : Dest) (o : AluOut) (s : State) : (commitAlu z o s).px = s.px := by cases z <;> rfl
@[simp] theorem commitAlu_pc (z : Dest) (o : AluOut) (s : State) : (commitAlu z o s).pc = s.pc := by cases z <;> rfl
@[simp] theorem commitAlu_pcStack (z : Dest) (o : AluOut) (s : State) : (commitAlu z o s).pcStack = s.pcStack := by cases z <;> rfl
@[simp] theorem commitAlu_loopStack (z : Dest) (o : AluOut) (s : State) : (commitAlu z o s).loopStack = s.loopStack := by cases z <;> rfl
@[simp] theorem commitAlu_cntr (z : Dest) (o : AluOut) (s : State) : (commitAlu z o s).cntr = s.cntr := by cases z <;> rfl
@[simp] theorem commitAlu_cntrValid (z : Dest) (o : AluOut) (s : State) : (commitAlu z o s).cntrValid = s.cntrValid := by cases z <;> rfl
@[simp] theorem commitAlu_cntrExpired (z : Dest) (o : AluOut) (s : State) : (commitAlu z o s).cntrExpired = s.cntrExpired := by cases z <;> rfl
@[simp] theorem commitAlu_cntrStack (z : Dest) (o : AluOut) (s : State) : (commitAlu z o s).cntrStack = s.cntrStack := by cases z <;> rfl
@[simp] theorem commitAlu_statusStack (z : Dest) (o : AluOut) (s : State) : (commitAlu z o s).statusStack = s.statusStack := by cases z <;> rfl
@[simp] theorem commitAlu_mstat (z : Dest) (o : AluOut) (s : State) : (commitAlu z o s).mstat = s.mstat := by cases z <;> rfl
@[simp] theorem commitAlu_pso (z : Dest) (o : AluOut) (s : State) : (commitAlu z o s).pso = s.pso := by cases z <;> rfl
@[simp] theorem commitAlu_cso (z : Dest) (o : AluOut) (s : State) : (commitAlu z o s).cso = s.cso := by cases z <;> rfl
@[simp] theorem commitAlu_sso (z : Dest) (o : AluOut) (s : State) : (commitAlu z o s).sso = s.sso := by cases z <;> rfl
@[simp] theorem commitAlu_lso (z : Dest) (o : AluOut) (s : State) : (commitAlu z o s).lso = s.lso := by cases z <;> rfl
@[simp] theorem commitAlu_imask (z : Dest) (o : AluOut) (s : State) : (commitAlu z o s).imask = s.imask := by cases z <;> rfl
@[simp] theorem commitAlu_icntl (z : Dest) (o : AluOut) (s : State) : (commitAlu z o s).icntl = s.icntl := by cases z <;> rfl
@[simp] theorem commitAlu_intsEn (z : Dest) (o : AluOut) (s : State) : (commitAlu z o s).intsEn = s.intsEn := by cases z <;> rfl
@[simp] theorem commitAlu_irqPending (z : Dest) (o : AluOut) (s : State) : (commitAlu z o s).irqPending = s.irqPending := by cases z <;> rfl
@[simp] theorem commitAlu_fiLatch (z : Dest) (o : AluOut) (s : State) : (commitAlu z o s).fiLatch = s.fiLatch := by cases z <;> rfl
@[simp] theorem commitAlu_flagOut (z : Dest) (o : AluOut) (s : State) : (commitAlu z o s).flagOut = s.flagOut := by cases z <;> rfl
@[simp] theorem commitAlu_fl0 (z : Dest) (o : AluOut) (s : State) : (commitAlu z o s).fl0 = s.fl0 := by cases z <;> rfl
@[simp] theorem commitAlu_fl1 (z : Dest) (o : AluOut) (s : State) : (commitAlu z o s).fl1 = s.fl1 := by cases z <;> rfl
@[simp] theorem commitAlu_fl2 (z : Dest) (o : AluOut) (s : State) : (commitAlu z o s).fl2 = s.fl2 := by cases z <;> rfl
@[simp] theorem commitAlu_pcPopPending (z : Dest) (o : AluOut) (s : State) : (commitAlu z o s).pcPopPending = s.pcPopPending := by cases z <;> rfl
@[simp] theorem commitAlu_idle (z : Dest) (o : AluOut) (s : State) : (commitAlu z o s).idle = s.idle := by cases z <;> rfl
@[simp] theorem commitAlu_idleDiv (z : Dest) (o : AluOut) (s : State) : (commitAlu z o s).idleDiv = s.idleDiv := by cases z <;> rfl
@[simp] theorem commitAlu_pm (z : Dest) (o : AluOut) (s : State) : (commitAlu z o s).pm = s.pm := by cases z <;> rfl
@[simp] theorem commitAlu_dm (z : Dest) (o : AluOut) (s : State) : (commitAlu z o s).dm = s.dm := by cases z <;> rfl
@[simp] theorem commitAlu_pmDirty (z : Dest) (o : AluOut) (s : State) : (commitAlu z o s).pmDirty = s.pmDirty := by cases z <;> rfl
@[simp] theorem commitAlu_draws (z : Dest) (o : AluOut) (s : State) : (commitAlu z o s).draws = s.draws := by cases z <;> rfl
@[simp] theorem commitAlu_events (z : Dest) (o : AluOut) (s : State) : (commitAlu z o s).events = s.events := by cases z <;> rfl
@[simp] theorem commitAlu_irqInputs (z : Dest) (o : AluOut) (s : State) : (commitAlu z o s).irqInputs = s.irqInputs := by cases z <;> rfl

@[simp] theorem commitMac_cfg (z : Dest) (r : Acc) (b : Bool) (s : State) : (commitMac z r b s).cfg = s.cfg := by cases z <;> rfl
@[simp] theorem commitMac_ireg (z : Dest) (r : Acc) (b : Bool) (s : State) : (commitMac z r b s).ireg = s.ireg := by cases z <;> rfl
@[simp] theorem commitMac_mreg (z : Dest) (r : Acc) (b : Bool) (s : State) : (commitMac z r b s).mreg = s.mreg := by cases z <;> rfl
@[simp] theorem commitMac_lreg (z : Dest) (r : Acc) (b : Bool) (s : State) : (commitMac z r b s).lreg = s.lreg := by cases z <;> rfl
@[simp] theorem commitMac_px (z : Dest) (r : Acc) (b : Bool) (s : State) : (commitMac z r b s).px = s.px := by cases z <;> rfl
@[simp] theorem commitMac_pc (z : Dest) (r : Acc) (b : Bool) (s : State) : (commitMac z r b s).pc = s.pc := by cases z <;> rfl
@[simp] theorem commitMac_pcStack (z : Dest) (r : Acc) (b : Bool) (s : State) : (commitMac z r b s).pcStack = s.pcStack := by cases z <;> rfl
@[simp] theorem commitMac_loopStack (z : Dest) (r : Acc) (b : Bool) (s : State) : (commitMac z r b s).loopStack = s.loopStack := by cases z <;> rfl
@[simp] theorem commitMac_cntr (z : Dest) (r : Acc) (b : Bool) (s : State) : (commitMac z r b s).cntr = s.cntr := by cases z <;> rfl
@[simp] theorem commitMac_cntrValid (z : Dest) (r : Acc) (b : Bool) (s : State) : (commitMac z r b s).cntrValid = s.cntrValid := by cases z <;> rfl
@[simp] theorem commitMac_cntrExpired (z : Dest) (r : Acc) (b : Bool) (s : State) : (commitMac z r b s).cntrExpired = s.cntrExpired := by cases z <;> rfl
@[simp] theorem commitMac_cntrStack (z : Dest) (r : Acc) (b : Bool) (s : State) : (commitMac z r b s).cntrStack = s.cntrStack := by cases z <;> rfl
@[simp] theorem commitMac_statusStack (z : Dest) (r : Acc) (b : Bool) (s : State) : (commitMac z r b s).statusStack = s.statusStack := by cases z <;> rfl
@[simp] theorem commitMac_mstat (z : Dest) (r : Acc) (b : Bool) (s : State) : (commitMac z r b s).mstat = s.mstat := by cases z <;> rfl
@[simp] theorem commitMac_pso (z : Dest) (r : Acc) (b : Bool) (s : State) : (commitMac z r b s).pso = s.pso := by cases z <;> rfl
@[simp] theorem commitMac_cso (z : Dest) (r : Acc) (b : Bool) (s : State) : (commitMac z r b s).cso = s.cso := by cases z <;> rfl
@[simp] theorem commitMac_sso (z : Dest) (r : Acc) (b : Bool) (s : State) : (commitMac z r b s).sso = s.sso := by cases z <;> rfl
@[simp] theorem commitMac_lso (z : Dest) (r : Acc) (b : Bool) (s : State) : (commitMac z r b s).lso = s.lso := by cases z <;> rfl
@[simp] theorem commitMac_imask (z : Dest) (r : Acc) (b : Bool) (s : State) : (commitMac z r b s).imask = s.imask := by cases z <;> rfl
@[simp] theorem commitMac_icntl (z : Dest) (r : Acc) (b : Bool) (s : State) : (commitMac z r b s).icntl = s.icntl := by cases z <;> rfl
@[simp] theorem commitMac_intsEn (z : Dest) (r : Acc) (b : Bool) (s : State) : (commitMac z r b s).intsEn = s.intsEn := by cases z <;> rfl
@[simp] theorem commitMac_irqPending (z : Dest) (r : Acc) (b : Bool) (s : State) : (commitMac z r b s).irqPending = s.irqPending := by cases z <;> rfl
@[simp] theorem commitMac_fiLatch (z : Dest) (r : Acc) (b : Bool) (s : State) : (commitMac z r b s).fiLatch = s.fiLatch := by cases z <;> rfl
@[simp] theorem commitMac_flagOut (z : Dest) (r : Acc) (b : Bool) (s : State) : (commitMac z r b s).flagOut = s.flagOut := by cases z <;> rfl
@[simp] theorem commitMac_fl0 (z : Dest) (r : Acc) (b : Bool) (s : State) : (commitMac z r b s).fl0 = s.fl0 := by cases z <;> rfl
@[simp] theorem commitMac_fl1 (z : Dest) (r : Acc) (b : Bool) (s : State) : (commitMac z r b s).fl1 = s.fl1 := by cases z <;> rfl
@[simp] theorem commitMac_fl2 (z : Dest) (r : Acc) (b : Bool) (s : State) : (commitMac z r b s).fl2 = s.fl2 := by cases z <;> rfl
@[simp] theorem commitMac_pcPopPending (z : Dest) (r : Acc) (b : Bool) (s : State) : (commitMac z r b s).pcPopPending = s.pcPopPending := by cases z <;> rfl
@[simp] theorem commitMac_idle (z : Dest) (r : Acc) (b : Bool) (s : State) : (commitMac z r b s).idle = s.idle := by cases z <;> rfl
@[simp] theorem commitMac_idleDiv (z : Dest) (r : Acc) (b : Bool) (s : State) : (commitMac z r b s).idleDiv = s.idleDiv := by cases z <;> rfl
@[simp] theorem commitMac_pm (z : Dest) (r : Acc) (b : Bool) (s : State) : (commitMac z r b s).pm = s.pm := by cases z <;> rfl
@[simp] theorem commitMac_dm (z : Dest) (r : Acc) (b : Bool) (s : State) : (commitMac z r b s).dm = s.dm := by cases z <;> rfl
@[simp] theorem commitMac_pmDirty (z : Dest) (r : Acc) (b : Bool) (s : State) : (commitMac z r b s).pmDirty = s.pmDirty := by cases z <;> rfl
@[simp] theorem commitMac_draws (z : Dest) (r : Acc) (b : Bool) (s : State) : (commitMac z r b s).draws = s.draws := by cases z <;> rfl
@[simp] theorem commitMac_events (z : Dest) (r : Acc) (b : Bool) (s : State) : (commitMac z r b s).events = s.events := by cases z <;> rfl
@[simp] theorem commitMac_irqInputs (z : Dest) (r : Acc) (b : Bool) (s : State) : (commitMac z r b s).irqInputs = s.irqInputs := by cases z <;> rfl

@[simp] theorem commitShift_cfg (o : Bool) (v : BitVec 32) (s : State) : (commitShift o v s).cfg = s.cfg := rfl
@[simp] theorem commitShift_ireg (o : Bool) (v : BitVec 32) (s : State) : (commitShift o v s).ireg = s.ireg := rfl
@[simp] theorem commitShift_mreg (o : Bool) (v : BitVec 32) (s : State) : (commitShift o v s).mreg = s.mreg := rfl
@[simp] theorem commitShift_lreg (o : Bool) (v : BitVec 32) (s : State) : (commitShift o v s).lreg = s.lreg := rfl
@[simp] theorem commitShift_px (o : Bool) (v : BitVec 32) (s : State) : (commitShift o v s).px = s.px := rfl
@[simp] theorem commitShift_pc (o : Bool) (v : BitVec 32) (s : State) : (commitShift o v s).pc = s.pc := rfl
@[simp] theorem commitShift_pcStack (o : Bool) (v : BitVec 32) (s : State) : (commitShift o v s).pcStack = s.pcStack := rfl
@[simp] theorem commitShift_loopStack (o : Bool) (v : BitVec 32) (s : State) : (commitShift o v s).loopStack = s.loopStack := rfl
@[simp] theorem commitShift_cntr (o : Bool) (v : BitVec 32) (s : State) : (commitShift o v s).cntr = s.cntr := rfl
@[simp] theorem commitShift_cntrValid (o : Bool) (v : BitVec 32) (s : State) : (commitShift o v s).cntrValid = s.cntrValid := rfl
@[simp] theorem commitShift_cntrExpired (o : Bool) (v : BitVec 32) (s : State) : (commitShift o v s).cntrExpired = s.cntrExpired := rfl
@[simp] theorem commitShift_cntrStack (o : Bool) (v : BitVec 32) (s : State) : (commitShift o v s).cntrStack = s.cntrStack := rfl
@[simp] theorem commitShift_statusStack (o : Bool) (v : BitVec 32) (s : State) : (commitShift o v s).statusStack = s.statusStack := rfl
@[simp] theorem commitShift_astat (o : Bool) (v : BitVec 32) (s : State) : (commitShift o v s).astat = s.astat := rfl
@[simp] theorem commitShift_mstat (o : Bool) (v : BitVec 32) (s : State) : (commitShift o v s).mstat = s.mstat := rfl
@[simp] theorem commitShift_pso (o : Bool) (v : BitVec 32) (s : State) : (commitShift o v s).pso = s.pso := rfl
@[simp] theorem commitShift_cso (o : Bool) (v : BitVec 32) (s : State) : (commitShift o v s).cso = s.cso := rfl
@[simp] theorem commitShift_sso (o : Bool) (v : BitVec 32) (s : State) : (commitShift o v s).sso = s.sso := rfl
@[simp] theorem commitShift_lso (o : Bool) (v : BitVec 32) (s : State) : (commitShift o v s).lso = s.lso := rfl
@[simp] theorem commitShift_imask (o : Bool) (v : BitVec 32) (s : State) : (commitShift o v s).imask = s.imask := rfl
@[simp] theorem commitShift_icntl (o : Bool) (v : BitVec 32) (s : State) : (commitShift o v s).icntl = s.icntl := rfl
@[simp] theorem commitShift_intsEn (o : Bool) (v : BitVec 32) (s : State) : (commitShift o v s).intsEn = s.intsEn := rfl
@[simp] theorem commitShift_irqPending (o : Bool) (v : BitVec 32) (s : State) : (commitShift o v s).irqPending = s.irqPending := rfl
@[simp] theorem commitShift_fiLatch (o : Bool) (v : BitVec 32) (s : State) : (commitShift o v s).fiLatch = s.fiLatch := rfl
@[simp] theorem commitShift_flagOut (o : Bool) (v : BitVec 32) (s : State) : (commitShift o v s).flagOut = s.flagOut := rfl
@[simp] theorem commitShift_fl0 (o : Bool) (v : BitVec 32) (s : State) : (commitShift o v s).fl0 = s.fl0 := rfl
@[simp] theorem commitShift_fl1 (o : Bool) (v : BitVec 32) (s : State) : (commitShift o v s).fl1 = s.fl1 := rfl
@[simp] theorem commitShift_fl2 (o : Bool) (v : BitVec 32) (s : State) : (commitShift o v s).fl2 = s.fl2 := rfl
@[simp] theorem commitShift_pcPopPending (o : Bool) (v : BitVec 32) (s : State) : (commitShift o v s).pcPopPending = s.pcPopPending := rfl
@[simp] theorem commitShift_idle (o : Bool) (v : BitVec 32) (s : State) : (commitShift o v s).idle = s.idle := rfl
@[simp] theorem commitShift_idleDiv (o : Bool) (v : BitVec 32) (s : State) : (commitShift o v s).idleDiv = s.idleDiv := rfl
@[simp] theorem commitShift_pm (o : Bool) (v : BitVec 32) (s : State) : (commitShift o v s).pm = s.pm := rfl
@[simp] theorem commitShift_dm (o : Bool) (v : BitVec 32) (s : State) : (commitShift o v s).dm = s.dm := rfl
@[simp] theorem commitShift_pmDirty (o : Bool) (v : BitVec 32) (s : State) : (commitShift o v s).pmDirty = s.pmDirty := rfl
@[simp] theorem commitShift_draws (o : Bool) (v : BitVec 32) (s : State) : (commitShift o v s).draws = s.draws := rfl
@[simp] theorem commitShift_events (o : Bool) (v : BitVec 32) (s : State) : (commitShift o v s).events = s.events := rfl
@[simp] theorem commitShift_irqInputs (o : Bool) (v : BitVec 32) (s : State) : (commitShift o v s).irqInputs = s.irqInputs := rfl

@[simp] theorem bank_writeDreg (d : Dreg) (v : Word) (s : State) :
    (writeDreg d v s).bank = bankWithDreg d v s.bank := by simp [writeDreg]

end Sys2Proof.Machine
end

