-- ==== Sys2Proof/Laws/Ops.lean ====
section
/-!
SUPPORT. One lemma per shared operation that says what it can do: the hazard checks, the sequencing of an
instruction, conditions, the stacks, memory accesses, and taking and leaving an interrupt.
-/

namespace Sys2Proof.Machine

/-! ## Hazards and sequencing -/

theorem guard_ok_iff (g : Guard) (s : State) :
    hazards g s = .ok () ↔
      ((s.pcPopPending = true → g.pcStack = false ∧ atLoopEnd s = false) ∧
       (atLoopEnd s = true → g.forbidden = false ∧ (g.counter = true → endsOnCe s = false))) := by
  unfold hazards
  cases s.pcPopPending <;> cases g.pcStack <;> cases atLoopEnd s <;> cases g.forbidden <;>
    cases g.counter <;> cases endsOnCe s <;> simp

theorem guard_plain (s : State) (h : CanAdvance s) : hazards .plain s = .ok () := by
  rw [guard_ok_iff]
  refine ⟨fun hp => ⟨rfl, ?_⟩, fun _ => ⟨rfl, by simp [Guard.plain]⟩⟩
  cases ha : atLoopEnd s
  · rfl
  · exact absurd hp (by simp [(h ha).1])

theorem guard_cond (c : Cond) (s : State) (h : CanAdvance s) (ht : CanTest c s) :
    hazards (.cond c) s = .ok () := by
  rw [guard_ok_iff]
  refine ⟨fun hp => ⟨rfl, ?_⟩, fun ha => ⟨rfl, fun hc => ?_⟩⟩
  · cases ha : atLoopEnd s
    · rfl
    · exact absurd hp (by simp [(h ha).1])
  · exact (ht (by simpa [Guard.cond] using hc)).2 ha

theorem guard_counter (s : State) (h : CanAdvance s) (p : Bool)
    (hc : p = true → atLoopEnd s = true → endsOnCe s = false) : hazards ⟨false, false, p⟩ s = .ok () := by
  rw [guard_ok_iff]
  refine ⟨fun hp => ⟨rfl, ?_⟩, fun ha => ⟨rfl, fun h => hc h ha⟩⟩
  cases ha : atLoopEnd s
  · rfl
  · exact absurd hp (by simp [(h ha).1])

/-- Away from a loop's end only a pending pop stops an instruction, and only one that uses the PC stack. -/
theorem guard_away (g : Guard) (s : State) (ha : atLoopEnd s = false)
    (hp : s.pcPopPending = true → g.pcStack = false) : hazards g s = .ok () := by
  rw [guard_ok_iff]
  exact ⟨fun h => ⟨hp h, ha⟩, fun h => absurd h (by simp [ha])⟩

theorem nextSeq_away (s : State) (h : atLoopEnd s = false) : nextSeq s = .ok .straight := by
  unfold nextSeq
  split
  · rfl
  · rename_i e rest he
    have : e.addr ≠ s.pc := by simpa [atLoopEnd, he] using h
    simp [this]

theorem nextSeq_end (s : State) (h : atLoopEnd s = true) (ha : CanAdvance s) :
    nextSeq s = .ok (if loopDone s then .leave (endsOnCe s) else .again (endsOnCe s)) := by
  obtain ⟨-, -, hc, hn⟩ := ha h
  unfold nextSeq
  split
  · rename_i he; simp [atLoopEnd, he] at h
  · rename_i e rest he
    have h1 : e.addr = s.pc := by simpa [atLoopEnd, he] using h
    have h2 : endsOnCe s = (e.term == .ce) := by simp [endsOnCe, he]
    have h3 : loopDone s = termHolds e.term s := by simp [loopDone, he]
    have h4 : ¬ (e.term = .ce ∧ s.cntr = 0) := fun ⟨a, b⟩ => hc (by simp [h2, a]) b
    rw [if_pos h1, if_neg h4, h2]
    cases ht : termHolds e.term s
    · simp [h3, ht]
    · have h5 := hn (by simp [h3, ht])
      cases rest with
      | nil => simp [h3, ht]
      | cons o rest =>
        have : o.addr ≠ s.pc := by simpa [nestedEnd, he] using h5
        simp [h3, ht, this]

/-- What an instruction with no stack effect does: its own effect, then `advance`. -/
theorem runSeq_ok (g : Guard) (eff : State → Except Fault State) (s t : State)
    (hg : hazards g s = .ok ()) (ha : CanAdvance s) (he : eff s = .ok t) (hpc : t.pc = s.pc)
    (hl : t.loopStack = s.loopStack) (hp : t.pcStack = s.pcStack) :
    runSeq g eff s = .ok (advance s t) := by
  unfold runSeq
  rw [hg]
  cases hE : atLoopEnd s
  · simp [nextSeq_away s hE, he, nextPc, advance, hE, hpc]
  · simp only [nextSeq_end s hE ha, he]
    obtain ⟨-, hne, -, -⟩ := ha hE
    have hls : s.loopStack ≠ [] := by
      intro h0; simp [atLoopEnd, h0] at hE
    obtain ⟨p, ps, hps⟩ := List.exists_cons_of_ne_nil hne
    obtain ⟨l, ls, hls'⟩ := List.exists_cons_of_ne_nil hls
    cases hd : loopDone s <;> cases hc : endsOnCe s <;>
      simp [nextPc, advance, hE, hd, hc, topPc, popLoop, popPc, hl, hp, hps, hls', hpc]

/-- The same away from a loop's end, whatever the effect does to the stacks. -/
theorem runSeq_away (g : Guard) (eff : State → Except Fault State) (s t : State)
    (hE : atLoopEnd s = false) (hg : s.pcPopPending = true → g.pcStack = false) (he : eff s = .ok t) :
    runSeq g eff s = .ok { t with pc := t.pc + 1 } := by
  unfold runSeq
  rw [guard_away g s hE hg]
  simp [nextSeq_away s hE, he, nextPc]

/-- `advance` away from a loop's end. -/
theorem advance_away (s t : State) (h : atLoopEnd s = false) : advance s t = { t with pc := s.pc + 1 } := by
  simp [advance, h]

/-- Every effect of an instruction that completes: its own, and the sequencing. -/
theorem runSeq_inv (g : Guard) (eff : State → Except Fault State) (s u : State)
    (h : runSeq g eff s = .ok u) :
    ∃ q t, hazards g s = .ok () ∧ nextSeq s = .ok q ∧ eff s = .ok t ∧ nextPc q t = .ok u := by
  unfold runSeq at h
  split at h
  · cases h
  · split at h
    · cases h
    · split at h
      · cases h
      · rename_i h1 _ q h2 _ t h3
        exact ⟨q, t, h1, h2, h3, h⟩

/-- What sequencing can do to a state. -/
theorem sequence_inv (q : Seq) (t u : State) (h : nextPc q t = .ok u) :
    (q = .straight ∧ u = { t with pc := t.pc + 1 }) ∨
    (∃ ce a rest, q = .again ce ∧ t.pcStack = a :: rest ∧
      u = { (if ce then ceTick t else t) with pc := a }) ∨
    (∃ ce a rest l ls, q = .leave ce ∧ t.pcStack = a :: rest ∧ t.loopStack = l :: ls ∧
      u = { (if ce then ceTick t else t) with loopStack := ls, pcStack := rest, pc := t.pc + 1 }) := by
  unfold nextPc at h
  cases q with
  | straight => exact .inl ⟨rfl, by simpa using h.symm⟩
  | again ce =>
    cases hp : t.pcStack with
    | nil => cases ce <;> simp [topPc, hp] at h
    | cons a rest => refine .inr (.inl ⟨ce, a, rest, rfl, rfl, ?_⟩); cases ce <;> simpa [topPc, hp] using h.symm
  | leave ce =>
    cases hl : t.loopStack with
    | nil => cases ce <;> simp [popLoop, hl] at h
    | cons l ls =>
      cases hp : t.pcStack with
      | nil => cases ce <;> simp [popLoop, popPc, hl, hp] at h
      | cons a rest =>
        refine .inr (.inr ⟨ce, a, rest, l, ls, rfl, rfl, rfl, ?_⟩)
        cases ce <;> simpa [popLoop, popPc, hl, hp] using h.symm

/-! ## Conditions -/

theorem evalCond_ok (c : Cond) (s : State) (h : c = .notCe → s.cntr ≠ 0) :
    evalCond c s = .ok (condHolds c s, tested c s) := by
  unfold evalCond tested
  by_cases hc : c = .notCe
  · rw [if_pos hc, if_neg (h hc), if_pos hc]
  · rw [if_neg hc, if_neg hc]

theorem ifCond_ok (c : Cond) (f : State → Except Fault State) (s : State) (h : c = .notCe → s.cntr ≠ 0) :
    ifCond c f s = if condHolds c s then f (tested c s) else .ok (tested c s) := by
  unfold ifCond
  rw [evalCond_ok c s h]
  cases condHolds c s <;> simp

theorem evalCond_inv (c : Cond) (s : State) (b : Bool) (t : State) (h : evalCond c s = .ok (b, t)) :
    b = condHolds c s ∧ t = tested c s ∧ (c = .notCe → s.cntr ≠ 0) := by
  unfold evalCond at h
  unfold tested
  by_cases hc : c = .notCe
  · rw [if_pos hc] at h ⊢
    split at h
    · cases h
    · rename_i hz
      simp only [Except.ok.injEq, Prod.mk.injEq] at h
      exact ⟨h.1.symm, h.2.symm, fun _ => hz⟩
  · rw [if_neg hc] at h ⊢
    simp only [Except.ok.injEq, Prod.mk.injEq] at h
    exact ⟨h.1.symm, h.2.symm, fun h => absurd h hc⟩

/-- What a conditional effect can do. -/
theorem ifCond_inv (c : Cond) (f : State → Except Fault State) (s u : State) (h : ifCond c f s = .ok u) :
    (condHolds c s = true ∧ f (tested c s) = .ok u) ∨ (condHolds c s = false ∧ u = tested c s) := by
  unfold ifCond at h
  cases he : evalCond c s with
  | error e => simp [he] at h
  | ok p =>
    obtain ⟨b, t⟩ := p
    obtain ⟨hb, ht, -⟩ := evalCond_inv c s b t he
    cases b <;> simp [he] at h
    · exact .inr ⟨hb.symm, h ▸ ht⟩
    · exact .inl ⟨hb.symm, ht ▸ h⟩

@[simp] theorem bank_tested (c : Cond) (s : State) : (tested c s).bank = s.bank := by
  unfold tested; split <;> simp

/-- A tested condition changes nothing but the counter. -/
theorem tested_cases (c : Cond) (s : State) : tested c s = s ∨ (c = .notCe ∧ tested c s = ceTick s) := by
  unfold tested; split <;> simp [*]

/-! ## Transfers -/

theorem runTransfer_taken (g : Guard) (test : State → Except Fault (Bool × State))
    (take : State → Except Fault State) (s t : State) (hg : hazards g s = .ok ())
    (ht : test s = .ok (true, t)) (hE : atLoopEnd s = false) : runTransfer g test take s = take t := by
  simp [runTransfer, hg, ht, hE]

theorem runTransfer_taken_end (g : Guard) (test : State → Except Fault (Bool × State))
    (take : State → Except Fault State) (s t : State) (hg : hazards g s = .ok ())
    (ht : test s = .ok (true, t)) (hE : atLoopEnd s = true) :
    runTransfer g test take s = .error .loopEnd := by
  simp [runTransfer, hg, ht, hE]

/-- A transfer that is not taken goes on like an instruction whose effect is its test. -/
theorem runTransfer_not (g : Guard) (test : State → Except Fault (Bool × State))
    (take : State → Except Fault State) (s t : State) (ht : test s = .ok (false, t)) :
    runTransfer g test take s = runSeq g (fun _ => .ok t) s := by
  unfold runTransfer runSeq
  split
  · rfl
  · simp only [ht]

theorem runTransfer_inv (g : Guard) (test : State → Except Fault (Bool × State))
    (take : State → Except Fault State) (s u : State) (h : runTransfer g test take s = .ok u) :
    hazards g s = .ok () ∧ ∃ b t, test s = .ok (b, t) ∧
      ((b = true ∧ atLoopEnd s = false ∧ take t = .ok u) ∨
       (b = false ∧ ∃ q, nextSeq s = .ok q ∧ nextPc q t = .ok u)) := by
  unfold runTransfer at h
  split at h
  · cases h
  · rename_i hg
    refine ⟨hg, ?_⟩
    split at h
    · cases h
    · rename_i t ht
      split at h
      · cases h
      · rename_i hE
        exact ⟨true, t, ht, .inl ⟨rfl, by simpa using hE, h⟩⟩
    · rename_i t ht
      split at h
      · cases h
      · rename_i q hq
        exact ⟨false, t, ht, .inr ⟨rfl, q, hq, h⟩⟩

/-! ## Outcomes -/

@[simp] theorem toOutcome_next (x : Except Fault State) (t : State) : toOutcome x = .next t ↔ x = .ok t := by
  cases x <;> simp [toOutcome]

@[simp] theorem toOutcome_fault (x : Except Fault State) (f : Fault) :
    toOutcome x = .fault f ↔ x = .error f := by
  cases x <;> simp [toOutcome]

@[simp] theorem toOutcome_not_refused (x : Except Fault State) (r : Refusal) :
    toOutcome x ≠ .refused r := by
  cases x <;> simp [toOutcome]

/-! ## Stacks -/

theorem pushPc_inv (a : Addr) (s t : State) (h : pushPc a s = .ok t) :
    s.pcStack.length < pcStackDepth ∧ t = { s with pcStack := a :: s.pcStack } := by
  unfold pushPc at h
  split at h
  · cases h
  · simp at h; exact ⟨by omega, h.symm⟩

theorem popPc_inv (s : State) (a : Addr) (t : State) (h : popPc s = .ok (a, t)) :
    s.pcStack = a :: t.pcStack ∧ t = { s with pcStack := s.pcStack.tail } := by
  unfold popPc at h
  split at h
  · cases h
  · rename_i b rest hb
    simp at h
    obtain ⟨rfl, rfl⟩ := h
    simp [hb]

theorem popLoop_inv (s t : State) (h : popLoop s = .ok t) :
    s.loopStack ≠ [] ∧ t = { s with loopStack := s.loopStack.tail } := by
  unfold popLoop at h
  split at h
  · cases h
  · rename_i b rest hb
    simp at h
    simp [hb, ← h]

theorem pushSts_inv (s t : State) (h : pushSts s = .ok t) :
    s.statusStack.length < s.cfg.statusStackDepth ∧
      t = { s with statusStack := ⟨s.astat, s.mstat, s.imask⟩ :: s.statusStack } := by
  unfold pushSts at h
  split at h
  · cases h
  · simp at h; exact ⟨by omega, h.symm⟩

theorem popSts_inv (s t : State) (h : popSts s = .ok t) :
    ∃ e rest, s.statusStack = e :: rest ∧
      t = { s with statusStack := rest, astat := e.astat, mstat := e.mstat, imask := e.imask } := by
  unfold popSts at h
  split at h
  · cases h
  · rename_i e rest he
    simp at h
    exact ⟨e, rest, he, h.symm⟩

theorem popCntr_inv (s t : State) (h : popCntr s = .ok t) :
    ∃ c rest, s.cntrStack = c :: rest ∧ t = { s with cntrStack := rest, cntr := c, cntrValid := true } := by
  unfold popCntr at h
  split at h
  · cases h
  · rename_i c rest hc
    simp at h
    exact ⟨c, rest, hc, h.symm⟩

theorem writeCntr_inv (v : Addr) (s t : State) (h : writeCntr v s = .ok t) :
    (s.cntrValid = true ∧ s.cntrStack.length < s.cfg.cntrStackDepth ∧
      t = { s with cntrStack := s.cntr :: s.cntrStack, cntr := v, cntrValid := true }) ∨
    (s.cntrValid = false ∧ t = { s with cntr := v, cntrValid := true }) := by
  unfold writeCntr at h
  split at h
  · split at h
    · cases h
    · simp at h; exact .inl ⟨‹_›, by omega, h.symm⟩
  · rename_i hv
    simp at h; exact .inr ⟨by simpa using hv, h.symm⟩

/-! ## Memory -/

theorem memReadDm_inv (a : Addr) (s : State) (v : Word) (t : State) (h : memReadDm a s = .ok (v, t)) :
    (t = s ∧ Memory.readDm s.dm a = some v) ∨
    (v = (drawnValue s).setWidth 16 ∧ t = s.drawn.emit (.devRead .dm a (v.setWidth 24))) := by
  unfold memReadDm at h
  split at h
  · cases h
  · simp at h; exact .inr ⟨h.1.symm, by rw [← h.2, ← h.1]⟩
  all_goals
    split at h
    · cases h
    · simp at h; obtain ⟨rfl, rfl⟩ := h; exact .inl ⟨rfl, ‹_›⟩

theorem memReadPm_inv (a : Addr) (s : State) (v : PWord) (t : State) (h : memReadPm a s = .ok (v, t)) :
    (t = s ∧ Memory.readPm s.pm a = some v) ∨
    (v = drawnValue s ∧ t = s.drawn.emit (.devRead .pm a v)) := by
  unfold memReadPm at h
  split at h
  · cases h
  · simp at h; exact .inr ⟨h.1.symm, by rw [← h.2, ← h.1]⟩
  all_goals
    split at h
    · cases h
    · simp at h; obtain ⟨rfl, rfl⟩ := h; exact .inl ⟨rfl, ‹_›⟩

theorem memWriteDm_inv (a : Addr) (v : Word) (s t : State) (h : memWriteDm a v s = .ok t) :
    t = { s with dm := Memory.writeDm s.dm a v } ∨ t = s.emit (.devWrite .dm a (v.setWidth 24)) := by
  unfold memWriteDm at h
  split at h <;> simp at h
  · exact .inl h.symm
  · exact .inr h.symm

theorem memWritePm_inv (a : Addr) (v : PWord) (s t : State) (h : memWritePm a v s = .ok t) :
    t = { s with pm := Memory.writePm s.pm a v, pmDirty := addToSet s.pmDirty a.toNat } ∨
    t = { s with pmDirty := addToSet s.pmDirty a.toNat }.emit (.devWrite .pm a v) := by
  unfold memWritePm at h
  split at h <;> simp at h
  · exact .inl h.symm
  · exact .inr h.symm

theorem fetch_inv (s : State) (w : PWord) (t : State) (h : fetch s = .ok (w, t)) :
    s.pc.toNat ∉ s.pmDirty ∧ memReadPm s.pc s = .ok (w, t) := by
  unfold fetch at h
  split at h
  · cases h
  · rename_i hd
    exact ⟨by simpa using hd, h⟩

/-! ## Interrupts -/

/-- Everything an interrupt entry does (R464). -/
theorem takeInterrupt_inv (q : IrqSource) (s t : State) (h : takeInterrupt q s = .ok t) :
    s.pcStack.length < pcStackDepth ∧ s.statusStack.length < s.cfg.statusStackDepth ∧
    t = { s with
      pcStack := s.pc :: s.pcStack
      statusStack := ⟨s.astat, s.mstat, s.imask⟩ :: s.statusStack
      idle := false
      imask := keepLow s.cfg.imaskBits (entryMaskValue s.imask s.icntl q.entryMask)
      irqPending := if q.clearsOnEntry then setBitTo s.irqPending q.latch.val false else s.irqPending
      pc := q.vector } := by
  unfold takeInterrupt at h
  split at h
  · cases h
  · rename_i s1 h1
    obtain ⟨hl1, rfl⟩ := pushPc_inv _ _ _ h1
    split at h
    · cases h
    · rename_i s2 h2
      obtain ⟨hl2, rfl⟩ := pushSts_inv _ _ h2
      simp at h
      exact ⟨hl1, by simpa using hl2, h.symm⟩

/-- Everything a return from an interrupt does (R361). -/
theorem returnFromInterrupt_inv (s t : State) (h : returnFromInterrupt s = .ok t) :
    ∃ a rest e sts, s.pcStack = a :: rest ∧ s.statusStack = e :: sts ∧
      t = { s with
        pc := a, pcStack := rest, statusStack := sts
        astat := e.astat, mstat := e.mstat, imask := e.imask } := by
  unfold returnFromInterrupt at h
  split at h
  · cases h
  · rename_i a u hu
    obtain ⟨hp, rfl⟩ := popPc_inv _ _ _ hu
    obtain ⟨e, sts, he, rfl⟩ := popSts_inv _ _ h
    exact ⟨a, s.pcStack.tail, e, sts, hp, he, rfl⟩

/-- The environment's step changes only the latches and its own list (R462). -/
theorem environmentStep_cases (s : State) :
    environmentStep s = s ∨ ∃ r rest, s.irqInputs = r :: rest ∧
      environmentStep s = { s with
        irqPending := s.irqPending ||| (r &&& latchable s.mstat s.cfg.irqTable), irqInputs := rest } := by
  unfold environmentStep
  split
  · exact .inl rfl
  · rename_i r rest h
    exact .inr ⟨r, rest, h, rfl⟩

theorem firstByPriority_mem (l : List IrqSource) (q : IrqSource) (h : firstByPriority l = some q) :
    q ∈ l ∧ ∀ r ∈ l, q.priority ≤ r.priority := by
  induction l generalizing q with
  | nil => simp [firstByPriority] at h
  | cons p ps ih =>
    simp only [firstByPriority] at h
    split at h
    · rename_i hn
      simp at h
      subst h
      cases ps with
      | nil => simp
      | cons a as =>
        simp only [firstByPriority] at hn
        split at hn
        · cases hn
        · split at hn <;> cases hn
    · rename_i r hr
      obtain ⟨h1, h2⟩ := ih r hr
      split at h <;> simp at h <;> subst h
      · refine ⟨by simp, fun x hx => ?_⟩
        rcases List.mem_cons.1 hx with rfl | hx
        · exact le_refl _
        · exact le_trans ‹_› (h2 x hx)
      · refine ⟨by simp [h1], fun x hx => ?_⟩
        rcases List.mem_cons.1 hx with rfl | hx
        · omega
        · exact h2 x hx

end Sys2Proof.Machine
end

