-- ==== Sys2Proof/Laws/Operands.lean ====
section
/-!
SUPPORT. One lemma per operand form: what a register write can change, what a modified index is, and what
the indirect accesses do.
-/

namespace Sys2Proof.Machine

/-! ## Register reads and writes -/

/-- A register read that completes changes nothing but the draws and the events, and those for a serial port
only (R311, R472); CNTR was readable (R318). -/
theorem readReg_inv (r : Reg) (s : State) (v : Word) (t : State) (h : readReg r s = .ok (v, t)) :
    (r = .cntr → cntrReadable s = true) ∧
      (t = s ∨ ∃ p, r = .port p ∧ t = s.drawn.emit (.portRead p v)) := by
  cases r with
  | cntr =>
    simp only [readReg] at h
    split at h
    · cases h; exact ⟨fun _ => ‹_›, .inl rfl⟩
    · cases h
  | port p => cases h; exact ⟨nofun, .inr ⟨p, rfl, rfl⟩⟩
  | dreg | i | m | l | astat | mstat | imask | icntl | sb | px => cases h; exact ⟨nofun, .inl rfl⟩

theorem readSrc_inv (r : SrcReg) (s : State) (v : Word) (t : State) (h : readSrc r s = .ok (v, t)) :
    (r = .reg .cntr → cntrReadable s = true) ∧
      (t = s ∨ ∃ p, r = .reg (.port p) ∧ t = s.drawn.emit (.portRead p v)) := by
  cases r with
  | sstat => cases h; exact ⟨nofun, .inl rfl⟩
  | reg r =>
    obtain ⟨hv, ht⟩ := readReg_inv r s v t h
    exact ⟨fun e => hv (SrcReg.reg.inj e), ht.imp_right fun ⟨p, e, h⟩ => ⟨p, congrArg _ e, h⟩⟩

/-- A register read completes unless it reads a CNTR whose count has expired (R318). -/
theorem readReg_ok (r : Reg) (s : State) (h : r = .cntr → cntrReadable s = true) :
    ∃ v t, readReg r s = .ok (v, t) := by
  cases r with
  | cntr => exact ⟨_, _, if_pos (h rfl)⟩
  | dreg | i | m | l | astat | mstat | imask | icntl | sb | px | port => exact ⟨_, _, rfl⟩

/-- A read of an expired CNTR faults (R318). -/
theorem readReg_cntr_expired (s : State) (h : cntrReadable s = false) : readReg .cntr s = .error .uninitCntr :=
  if_neg (Bool.not_eq_true _ ▸ h)

/-- What no move changes: the pc, the PC, loop and status stacks, the overflow bits, the memories, the
pins, the interrupt enable, the idle state and the configuration (R310, R314). -/
structure SameOutside (s t : State) : Prop where
  cfg : t.cfg = s.cfg
  pc : t.pc = s.pc
  pcStack : t.pcStack = s.pcStack
  loopStack : t.loopStack = s.loopStack
  statusStack : t.statusStack = s.statusStack
  pso : t.pso = s.pso
  cso : t.cso = s.cso
  sso : t.sso = s.sso
  lso : t.lso = s.lso
  intsEn : t.intsEn = s.intsEn
  fiLatch : t.fiLatch = s.fiLatch
  flagOut : t.flagOut = s.flagOut
  fl0 : t.fl0 = s.fl0
  fl1 : t.fl1 = s.fl1
  fl2 : t.fl2 = s.fl2
  pcPopPending : t.pcPopPending = s.pcPopPending
  idle : t.idle = s.idle
  idleDiv : t.idleDiv = s.idleDiv
  pm : t.pm = s.pm
  dm : t.dm = s.dm
  pmDirty : t.pmDirty = s.pmDirty
  draws : t.draws = s.draws
  irqInputs : t.irqInputs = s.irqInputs

theorem writeReg_same (r : Reg) (v : Word) (s t : State) (h : writeReg r v s = .ok t) : SameOutside s t := by
  cases r with
  | cntr =>
    rcases writeCntr_inv _ _ _ h with ⟨-, -, rfl⟩ | ⟨-, rfl⟩ <;> constructor <;> rfl
  | dreg | i | m | l | astat | mstat | imask | icntl | sb | px | port =>
    simp only [writeReg, Except.ok.injEq] at h
    subst h
    constructor <;> rfl

theorem writeDst_same (d : DstReg) (v : Word) (s t : State) (h : writeDst d v s = .ok t) :
    SameOutside s t := by
  cases d with
  | reg r => exact writeReg_same r v s t h
  | owrcntr | ifc =>
    simp only [writeDst, Except.ok.injEq] at h
    subst h
    constructor <;> rfl

/-- A register write completes unless it writes a valid CNTR with the counter stack full (R318). -/
theorem writeReg_ok (r : Reg) (v : Word) (s : State)
    (h : r = .cntr → s.cntrValid = true → s.cntrStack.length < s.cfg.cntrStackDepth) :
    ∃ t, writeReg r v s = .ok t := by
  cases r with
  | cntr =>
    simp only [writeReg, writeCntr]
    split
    · rw [if_neg (by have := h rfl ‹_›; omega)]
      exact ⟨_, rfl⟩
    · exact ⟨_, rfl⟩
  | dreg | i | m | l | astat | mstat | imask | icntl | sb | px | port => exact ⟨_, rfl⟩

/-! ## Data address generators -/

theorem modifiedI_linear (g : Dag) (i m : Fin 4) (s : State) (h : s.lreg.get (dagIndex g i) = 0) :
    modifiedI g i m s = .ok (s.ireg.get (dagIndex g i) + s.mreg.get (dagIndex g m)) := by
  simp [modifiedI, h]

/-- The least power of two that holds `l`, when 2^(n + fuel) does. -/
theorem le_leastPow (l fuel n : Nat) (h : l ≤ 2 ^ (n + fuel)) : l ≤ 2 ^ leastPow l fuel n := by
  induction fuel generalizing n with
  | zero => simpa [leastPow] using h
  | succ f ih =>
    simp only [leastPow]
    split
    · assumption
    · exact ih (n + 1) (by rw [show n + 1 + f = n + (f + 1) by omega]; exact h)

theorem leastPow_le (l fuel n k : Nat) (hk : n ≤ k) (h : l ≤ 2 ^ k) (hf : l ≤ 2 ^ (n + fuel)) :
    leastPow l fuel n ≤ k := by
  induction fuel generalizing n with
  | zero => simpa [leastPow] using hk
  | succ f ih =>
    simp only [leastPow]
    split
    · exact hk
    · rename_i hn
      refine ih (n + 1) ?_ (by rw [show n + 1 + f = n + (f + 1) by omega]; exact hf)
      rcases Nat.lt_or_ge n k with h1 | h1
      · omega
      · have : k = n := by omega
        subst this; exact absurd h hn

/-- Storing a modified index leaves the other index registers alone. -/
theorem setI_get (g : Dag) (i : Fin 4) (a : Addr) (s : State) (n : Fin 8) :
    (setI g i a s).ireg.get n = if n = dagIndex g i then a else s.ireg.get n := by
  simp only [setI, Vector.get_eq_getElem, Vector.getElem_set]
  split
  · rename_i h; rw [if_pos (Fin.ext h.symm)]
  · rename_i h; rw [if_neg (fun e => h (by simp [e]))]

theorem dmFetch_inv (g : Dag) (i m : Fin 4) (s : State) (v : Word) (t : State) (a : Addr)
    (h : dmFetch g i m s = .ok (v, t, a)) :
    modifiedI g i m s = .ok a ∧ memReadDm (dagAddr g i s) s = .ok (v, t) := by
  unfold dmFetch at h
  split at h
  · cases h
  · split at h
    · cases h
    · simp at h
      obtain ⟨rfl, rfl, rfl⟩ := h
      exact ⟨‹_›, ‹_›⟩

theorem pmFetch_inv (i m : Fin 4) (s : State) (w : PWord) (t : State) (a : Addr)
    (h : pmFetch i m s = .ok (w, t, a)) :
    modifiedI .two i m s = .ok a ∧ memReadPm (dagAddr .two i s) s = .ok (w, t) := by
  unfold pmFetch at h
  split at h
  · cases h
  · split at h
    · cases h
    · simp at h
      obtain ⟨rfl, rfl, rfl⟩ := h
      exact ⟨‹_›, ‹_›⟩

theorem dmStore_inv (g : Dag) (v : Word) (i m : Fin 4) (s u : State) (h : dmStore g v i m s = .ok u) :
    ∃ a t, modifiedI g i m s = .ok a ∧ memWriteDm (dagAddr g i s) v s = .ok t ∧ u = setI g i a t := by
  unfold dmStore at h
  split at h
  · cases h
  · split at h
    · cases h
    · simp at h
      exact ⟨_, _, ‹_›, ‹_›, h.symm⟩

theorem pmStore_inv (v : Word) (i m : Fin 4) (s u : State) (h : pmStore v i m s = .ok u) :
    ∃ a t, modifiedI .two i m s = .ok a ∧ memWritePm (dagAddr .two i s) (v ++ s.px) s = .ok t ∧
      u = setI .two i a t := by
  unfold pmStore at h
  split at h
  · cases h
  · split at h
    · cases h
    · simp at h
      exact ⟨_, _, ‹_›, ‹_›, h.symm⟩

/-- Program-memory accesses are never bit-reversed (R95). -/
@[simp] theorem dagAddr_two (i : Fin 4) (s : State) : dagAddr .two i s = s.ireg.get (dagIndex .two i) := by
  simp [dagAddr]

end Sys2Proof.Machine
end

