-- ==== Sys2Proof/Laws/Units.lean ====
section
/-!
SUPPORT. What PASS constant (R221) and a multiply by the constant 0 (R260) do.
-/

namespace Sys2Proof.Machine

/-- PASS constant with a result of -1, 0 or 1 is an ALU result like any other (R200). -/
theorem passKonst_defined (f : AluFn) (z : Dest) (y : Word) (s : State)
    (h : passDefines (alu f 0 y (acOf s.astat)).r = true) :
    passKonst f z y s = commitAlu z (alu f 0 y (acOf s.astat)) s := if_pos h

/-- With any other result its flags are free (R221). -/
theorem passKonst_other (f : AluFn) (z : Dest) (y : Word) (s : State)
    (h : passDefines (alu f 0 y (acOf s.astat)).r = false) :
    passKonst f z y s = passOther z (alu f 0 y (acOf s.astat)).r s := if_neg (Bool.not_eq_true _ ▸ h)

/-- PASS constant draws a free value exactly when the flags are free. -/
theorem passKonst_draws (f : AluFn) (z : Dest) (y : Word) (s : State) :
    (passKonst f z y s).draws =
      if passDefines (alu f 0 y (acOf s.astat)).r then s.draws else s.draws + 1 := by
  dsimp only [passKonst]
  split <;> cases z <;> rfl

@[simp] theorem macFormat_mul_zero (fmt : MacFmt) : macFormat .mul fmt .zero = .ss := rfl

/-- A yop that is a register, an accumulate and a subtract keep the format. -/
theorem macFormat_of_ne (op : MacOp) (fmt : MacFmt) (y : MacY) (h : op ≠ .mul ∨ y ≠ .zero) :
    macFormat op fmt y = fmt := if_neg (by tauto)

/-- In every format but (RND) the product with 0 is 0. -/
theorem macOf_mul_zero (fmt : MacFmt) (x : Word) (s : State) (h : fmt ≠ .rnd) : macOf .mul fmt x 0 s = 0 := by
  simp only [macOf, macResult, if_neg h]
  cases fmt <;> simp [macProduct, macOperand]

/-- A multiply by yop = 0 is the clear in every format (R260). -/
theorem compute_mul_zero (z : Dest) (fmt : MacFmt) (x : MacX) (pre post : State) :
    compute z (.mac .mul fmt x .zero) pre post = commitMac z 0 false post := by
  simp only [compute, macFormat_mul_zero, show macYVal .zero pre = 0 from rfl, macOf_mul_zero _ _ _ (by decide : MacFmt.ss ≠ .rnd)]
  rfl

end Sys2Proof.Machine
end

