-- ==== Sys2Proof/Tests/Slice0.lean ====
section
/-!
SUPPORT. The tests: every constructor's decoding from a word written out field by field from its encoding (R121 to
R151), one step of every instruction with the results of 95_test_vectors.md (or, where it has no row, worked by
hand from the rule), every fault, interrupts, an ill-formed term for each check, and for the obligations with
hypotheses a state that meets them.
-/

namespace Sys2Proof.Tests

open Sys2Proof Sys2Proof.Machine Sys2Proof.Spec

/-! ## States and views -/

/-- Every optional part present. -/
abbrev std : Config := Config.standard

/-- A part with no optional instruction. -/
def bare : Config := { Config.standard with extAluMac := false, hasIo := false, hasFl := false, hasSlowIdle := false }

/-- The base state of the tests: right after reset, with the pc at 0x100. -/
def at100 : State := { State.reset with pc := 0x100 }

/-- Eight zeros. -/
def zeros : Vector Addr 8 := Vector.replicate 8 0

/-- What a view of the state shows after one step that fetches the word `w`. -/
def after {α : Type} (w : Nat) (s : State) (f : State → α) : Option α :=
  match step (s.withFetchWord 24 w) with
  | .next t => some (f t)
  | _ => none

/-- The state after an instruction. -/
def ran (i : Instr) (s : State) : Option State :=
  match exec i s with
  | .next t => some t
  | _ => none

/-- At the last instruction of a loop that ends on `t` and starts at 0x80. -/
def atEnd (t : Term) (astat : BitVec 8) (cntr : Addr) : State :=
  { at100 with loopStack := [⟨0x100, t⟩], pcStack := [0x80], astat := astat, cntr := cntr, cntrValid := true }

/-! ## Decoding -/

theorem test_decode_alu_add_subtract :
    decode std 0b00100_0_10011_10_111_0000_0000 = some (.addXY .result .sr1 .af .eq) ∧
    decode std 0b00100_1_10011_10_110_11_0_1_1000 = some (.addXK .feedback .sr0 ⟨11, false⟩ .ac) ∧
    decode std 0b00100_0_10010_11_010_0000_0101 = some (.addcXY .result .ar .zero .ge) ∧
    decode std 0b00100_1_10010_01_101_10_1_1_0011 = some (.addcXK .feedback .mr2 ⟨6, true⟩ .le) ∧
    decode std 0b00100_1_10111_00_100_0000_1101 = some (.subXY .feedback .mr1 .ay0 .notMv) ∧
    decode std 0b00100_0_10111_10_000_01_0_1_0111 = some (.subXK .result .ax0 ⟨9, false⟩ .notAv) ∧
    decode std 0b00100_0_10110_01_011_0000_1110 = some (.subbXY .result .mr0 .ay1 .notCe) ∧
    decode std 0b00100_1_10110_11_001_01_1_1_1111 = some (.subbXK .feedback .ax1 ⟨13, true⟩ .always) ∧
    decode std 0b00100_1_11001_01_001_0000_0110 = some (.rsubXY .feedback .ax1 .ay1 .av) ∧
    decode std 0b00100_0_11001_00_111_01_1_1_0001 = some (.rsubXK .result .sr1 ⟨1, true⟩ .ne) ∧
    decode std 0b00100_0_11010_10_010_0000_0100 = some (.rsubbXY .result .ar .af .lt) ∧
    decode std 0b00100_1_11010_00_000_10_0_1_0010 = some (.rsubbXK .feedback .ax0 ⟨2, false⟩ .gt) := by
  decide

theorem test_decode_alu_logic_and_bits :
    decode std 0b00100_1_11100_00_100_0000_1001 = some (.andXY .feedback .mr1 .ay0 .notAc) ∧
    decode std 0b00100_0_11101_11_110_0000_1100 = some (.orXY .result .sr0 .zero .mv) ∧
    decode std 0b00100_0_11101_11_101_10_1_1_1011 = some (.orXK .result .mr2 ⟨14, true⟩ .pos) ∧
    decode std 0b00100_1_11110_00_011_0000_1010 = some (.xorXY .feedback .mr0 .ay0 .neg) ∧
    decode std 0b00100_0_11110_10_111_10_1_1_0011 = some (.xorXK .result .sr1 ⟨10, true⟩ .le) ∧
    decode std 0b00100_1_11100_01_110_10_01_0111 = some (.tstBit .feedback 6 .sr0 .notAv) ∧
    decode std 0b00100_0_11101_11_010_11_01_0110 = some (.setBit .result 15 .ar .av) ∧
    decode std 0b00100_1_11100_10_100_00_11_1101 = some (.clrBit .feedback 8 .mr1 .notMv) ∧
    decode std 0b00100_0_11110_11_000_00_01_1001 = some (.tglBit .result 12 .ax0 .notAc) := by
  decide

theorem test_decode_alu_pass_and_one_operand :
    decode std 0b00100_1_10000_01_000_0000_1110 = some (.passY .feedback .ay1 .notCe) ∧
    decode std 0b00100_1_1000011_000_0000_0010 = some (.passZero .feedback .gt) ∧
    decode std 0b00100_0_1001111_101_0000_1000 = some (.passX .result .mr2 .ac) ∧
    decode std 0b00100_1_1000111_000_0000_1111 = some (.passOne .feedback .always) ∧
    decode std 0b00100_0_1100011_000_0000_1011 = some (.passMinusOne .result .pos) ∧
    decode std 0b00100_0_10000_01_000_11_0_1_0001 = some (.passK .result ⟨7, false⟩ .ne) ∧
    decode std 0b00100_1_10001_01_000_00_1_1_0100 = some (.passKInc .feedback ⟨4, true⟩ .lt) ∧
    decode std 0b00100_1_11000_00_000_00_1_1_1010 = some (.passKDec .feedback ⟨0, true⟩ .neg) ∧
    decode std 0b00100_0_1100111_001_0000_0000 = some (.negX .result .ax1 .eq) ∧
    decode std 0b00100_0_10101_11_000_0000_1100 = some (.negY .result .zero .mv) ∧
    decode std 0b00100_1_11011_00_011_0000_0101 = some (.notX .feedback .mr0 .ge) ∧
    decode std 0b00100_0_10100_10_000_0000_1000 = some (.notY .result .af .ac) ∧
    decode std 0b00100_1_11111_00_000_0000_0110 = some (.absX .feedback .ax0 .av) ∧
    decode std 0b00100_1_10001_10_000_0000_0000 = some (.incY .feedback .af .eq) ∧
    decode std 0b00100_0_11000_00_000_0000_1110 = some (.decY .result .ay0 .notCe) ∧
    decode std 0b00000110000_01_001_00000000 = some (.divs .ay1 .ax1) ∧
    decode std 0b0000011100010_110_00000000 = some (.divq .sr0) ∧
    decode std 0b0010101_0010_11_010_10101010 = some (.noneAlu .addC .ar .zero) := by
  decide

theorem test_decode_mac :
    decode std 0b00100_1_00100_01_111_0000_1101 = some (.mulSS .feedback .sr1 .my1 .notMv) ∧
    decode std 0b00100_0_00101_00_100_0000_0100 = some (.mulSU .result .mr1 .my0 .lt) ∧
    decode std 0b00100_0_00110_11_001_0000_1100 = some (.mulUS .result .mx1 .zero .mv) ∧
    decode std 0b00100_1_00111_10_011_0000_1011 = some (.mulUU .feedback .mr0 .mf .pos) ∧
    decode std 0b00100_0_00001_11_101_0000_0010 = some (.mulRND .result .mr2 .zero .gt) ∧
    decode std 0b00100_1_01000_10_110_0000_0101 = some (.macSS .feedback .sr0 .mf .ge) ∧
    decode std 0b00100_1_01001_00_000_0000_1111 = some (.macSU .feedback .mx0 .my0 .always) ∧
    decode std 0b00100_0_01010_01_010_0000_0001 = some (.macUS .result .ar .my1 .ne) ∧
    decode std 0b00100_0_01011_01_011_0000_1010 = some (.macUU .result .mr0 .my1 .neg) ∧
    decode std 0b00100_1_00010_00_110_0000_1001 = some (.macRND .feedback .sr0 .my0 .notAc) ∧
    decode std 0b00100_0_01100_11_111_0000_0011 = some (.msubSS .result .sr1 .zero .le) ∧
    decode std 0b00100_1_01101_10_010_0000_0111 = some (.msubSU .feedback .ar .mf .notAv) ∧
    decode std 0b00100_0_01110_01_100_0000_1110 = some (.msubUS .result .mr1 .my1 .notCe) ∧
    decode std 0b00100_1_01111_10_001_0000_1100 = some (.msubUU .feedback .mx1 .mf .mv) ∧
    decode std 0b00100_0_00011_11_000_0000_1101 = some (.msubRND .result .mx0 .zero .notMv) := by
  decide

theorem test_decode_mac_squares_and_mr :
    decode std 0b00100_1_0010000_101_0001_1010 = some (.sqSS .feedback .mr2 .neg) ∧
    decode std 0b00100_1_0011100_111_0001_1000 = some (.sqUU .feedback .sr1 .ac) ∧
    decode std 0b00100_0_0000100_100_0001_0100 = some (.sqRND .result .mr1 .lt) ∧
    decode std 0b00100_1_0100000_110_0001_0010 = some (.macSqSS .feedback .sr0 .gt) ∧
    decode std 0b00100_0_0101100_000_0001_0011 = some (.macSqUU .result .mx0 .le) ∧
    decode std 0b00100_1_0001000_011_0001_1001 = some (.macSqRND .feedback .mr0 .notAc) ∧
    decode std 0b00100_0_0110000_010_0001_0101 = some (.msubSqSS .result .ar .ge) ∧
    decode std 0b00100_0_0111100_101_0001_0111 = some (.msubSqUU .result .mr2 .notAv) ∧
    decode std 0b00100_1_0001100_001_0001_1111 = some (.msubSqRND .feedback .mx1 .always) ∧
    decode std 0b00100_1_00100110000000_0001 = some (.clearMR .feedback .ne) ∧
    decode std 0b00100_0_01000110000000_0110 = some (.transferMR .result .av) ∧
    decode std 0b00100_0_00010110000000_1011 = some (.transferMRRnd .result .pos) ∧
    decode std 0b000001010000000000000000 = some .satMR := by
  decide

theorem test_decode_shifter :
    decode std 0b0000111000000_011_0000_0000 = some (.lshiftHi .mr0 .eq) ∧
    decode std 0b0000111000001_010_0000_0011 = some (.lshiftHiOr .ar .le) ∧
    decode std 0b0000111000010_000_0000_1000 = some (.lshiftLo .si .ac) ∧
    decode std 0b0000111000011_111_0000_0100 = some (.lshiftLoOr .sr1 .lt) ∧
    decode std 0b0000111000100_110_0000_1011 = some (.ashiftHi .sr0 .pos) ∧
    decode std 0b0000111000101_101_0000_0101 = some (.ashiftHiOr .mr2 .ge) ∧
    decode std 0b0000111000110_100_0000_1111 = some (.ashiftLo .mr1 .always) ∧
    decode std 0b0000111000111_010_0000_1110 = some (.ashiftLoOr .ar .notCe) ∧
    decode std 0b0000111001000_101_0000_0110 = some (.normHi .mr2 .av) ∧
    decode std 0b0000111001001_011_0000_1001 = some (.normHiOr .mr0 .notAc) ∧
    decode std 0b0000111001010_000_0000_1100 = some (.normLo .si .mv) ∧
    decode std 0b0000111001011_100_0000_1101 = some (.normLoOr .mr1 .notMv) ∧
    decode std 0b0000111001100_110_0000_0111 = some (.expHi .sr0 .notAv) ∧
    decode std 0b0000111001101_111_0000_0010 = some (.expHix .sr1 .gt) ∧
    decode std 0b0000111001110_010_0000_0001 = some (.expLo .ar .ne) ∧
    decode std 0b0000111001111_000_0000_1010 = some (.expAdj .si .neg) := by
  decide

theorem test_decode_shift_immediate :
    decode std 0b0000111100000_100_11001101 = some (.lshiftImmHi .mr1 0xcd) ∧
    decode std 0b0000111100001_111_00110100 = some (.lshiftImmHiOr .sr1 0x34) ∧
    decode std 0b0000111100010_011_01001111 = some (.lshiftImmLo .mr0 0x4f) ∧
    decode std 0b0000111100011_110_11000111 = some (.lshiftImmLoOr .sr0 0xc7) ∧
    decode std 0b0000111100100_101_01000111 = some (.ashiftImmHi .mr2 0x47) ∧
    decode std 0b0000111100101_100_01010101 = some (.ashiftImmHiOr .mr1 0x55) ∧
    decode std 0b0000111100110_111_01011101 = some (.ashiftImmLo .sr1 0x5d) ∧
    decode std 0b0000111100111_110_01001100 = some (.ashiftImmLoOr .sr0 0x4c) := by
  decide

theorem test_decode_moves :
    decode std 0b000011010000_00_10_1110_1011 = some (.regMove (.reg (.dreg .sr0)) (.reg (.l 7))) ∧
    decode std 0b0100_0100010100101110_1011 = some (.loadDreg .mr0 0x452e) ∧
    decode std 0b0011_10_10110111101011_1000 = some (.loadReg (.reg (.l 4)) 0x2deb) ∧
    decode std 0b1000_01_00011101110011_0101 = some (.dmReadDirect (.reg (.m 1)) 0x773) ∧
    decode std 0b1001_00_01001110101001_0111 = some (.dmWriteDirect 0x13a9 (.reg (.dreg .my1))) ∧
    decode std 0b011_0_0_0_00000_00_000_1101_00_01 = some (.dmRead .one .mr2 0 1) ∧
    decode std 0b011_1_1_0_00000_00_000_0010_10_11 = some (.dmWrite .two .mx0 2 3) ∧
    decode std 0b101_0_0000101111111100_01_00 = some (.dmWriteImm .one 0xbfc 1 0) ∧
    decode std 0b01010_0_00000_00_000_0110_11_10 = some (.pmRead .my0 3 2) ∧
    decode std 0b01011_0_00000_00_000_0000_00_00 = some (.pmWrite .ax0 0 0) ∧
    decode std 0b000000010_01010111010_1111 = some (.ioRead .sr1 0x2ba) ∧
    decode std 0b000000011_11101100100_0101 = some (.ioWrite 0x764 .ay1) := by
  decide

theorem test_decode_program_flow :
    decode std 0b000110_00011101010110_0000 = some (.jump 0x756 .eq) ∧
    decode std 0b0000101100000000_10_00_1111 = some (.jumpInd 2 .always) ∧
    decode std 0b000111_11101001001111_0001 = some (.call 0x3a4f .ne) ∧
    decode std 0b0000101100000000_01_01_1100 = some (.callInd 1 .mv) ∧
    decode std 0b00000011_100010011110_10_1_0 = some (.jumpFlagIn true 0x289e) ∧
    decode std 0b00000011_011000011011_00_0_1 = some (.callFlagIn false 0x61b) ∧
    decode std 0b000000100000_11_01_00_10_0000 = some (.flagOut .set .toggle .keep .reset .eq) ∧
    decode std 0b00001010000000000000_1010 = some (.rts .neg) ∧
    decode std 0b00001010000000000001_1110 = some (.rti .notCe) ∧
    decode std 0b000101_01000011101010_0101 = some (.doUntil 0x10ea .lt) ∧
    decode std 0b000000101000000000000000 = some .idle ∧
    decode std 0b00000010100000000000_0001 = some (.idleN .d16) := by
  decide

theorem test_decode_misc :
    decode std 0b0000010000000000000_0_0_0_11 = some (.stackControl false false false .pop) ∧
    decode std 0b000011010000_00_11_0011_1111 = some (.regFromTop (.dreg .mx1)) ∧
    decode std 0b00001101000011_01_1111_0101 = some (.topFromReg (.m 1)) ∧
    decode std 0b00001100_11_00_10_10_11_00_10_00 = some (.modeControl .enable .keep .disable .disable .enable .keep .disable) ∧
    decode std 0b0000100100000000000_1_11_10 = some (.modify .two 3 2) ∧
    decode std 0b000000000000000000000000 = some .nop ∧
    decode std 0b00100_0_00000_00_000_00_00_0000 = some .nopType9 ∧
    decode std 0b000001000000000001100000 = some .enaInts ∧
    decode std 0b000001000000000001000000 = some .disInts := by
  decide

theorem test_decode_multifunction :
    decode std 0b011_1_0_1_01000_01_011_1110_01_11 = some (.compDmRead .two .feedback (.mac .acc .ss .mr0 .my1) .sr0 1 3) ∧
    decode std 0b01010_1_10111_10_001_1100_00_01 = some (.compPmRead .feedback (.alu .sub .ax1 .af) .mr1 0 1) ∧
    decode std 0b0001001_0_0_1001_101_1000_11_01 = some (.shiftDmRead .one .normHiOr .mr2 .si 3 1) ∧
    decode std 0b000100010_0000_011_0011_10_11 = some (.shiftPmRead .lshiftHi .mr0 .mx1 2 3) ∧
    decode std 0b00101_0_00010_00_110_0100_0001 = some (.compMove .result (some (.mac .acc .rnd .sr0 .my0)) .ay0 .ax1) ∧
    decode std 0b000100000_1100_000_1010_0111 = some (.shiftMove .expHi .si .ar .my1) ∧
    decode std 0b011_1_1_0_10010_11_010_1001_10_10 = some (.compDmWrite .two .result (.alu .addC .ar .zero) .se 2 2) ∧
    decode std 0b01011_1_11010_10_111_0011_01_00 = some (.compPmWrite .feedback (.alu .rsubC .sr1 .af) .mx1 1 0) ∧
    decode std 0b0001001_0_1_0110_010_0000_11_10 = some (.shiftDmWrite .one .ashiftLo .ar .ax0 3 2) ∧
    decode std 0b000100011_1111_000_1100_00_01 = some (.shiftPmWrite .expAdj .si .mr1 0 1) ∧
    decode std 0b11_11_11_00000_00_000_10_01_10_00 = some (.dualRead .my1 .mx1 2 1 2 0) ∧
    decode std 0b11_10_10_00001_11_100_11_10_00_01 = some (.compDualRead (.mac .mul .rnd .mr1 .zero) .my0 .mx0 3 2 0 1) := by
  decide

/-! ## One step of every instruction -/

theorem test_addXY : after 0x22600F { at100 with prim := { Bank.zero with ax0 := 0x8000, ay0 := 0xFFFF } }
    (fun t => (t.prim.ar, t.astat, t.pc)) = some (0x7FFF, 0x0C, 0x0101) := by decide

theorem test_addXK : after 0x22601F { at100 with prim := { Bank.zero with ax0 := 0x7FFF } }
    (fun t => (t.prim.ar, t.astat, t.pc)) = some (0x8000, 0x06, 0x0101) := by decide

theorem test_addcXY : after 0x22400F
    { at100 with prim := { Bank.zero with ax0 := 0xFFFF, ay0 := 0x0000 }, astat := 0x08 }
    (fun t => (t.prim.ar, t.astat, t.pc)) = some (0x0000, 0x09, 0x0101) := by decide

theorem test_addcXK : after 0x22401F { at100 with prim := { Bank.zero with ax0 := 0xFFFE }, astat := 0x08 }
    (fun t => (t.prim.ar, t.astat, t.pc)) = some (0x0000, 0x09, 0x0101) := by decide

theorem test_subXY : after 0x22E00F { at100 with prim := { Bank.zero with ax0 := 0x8000, ay0 := 0x0001 } }
    (fun t => (t.prim.ar, t.astat, t.pc)) = some (0x7FFF, 0x0C, 0x0101) := by decide

theorem test_subXK : after 0x22F8DF { at100 with prim := { Bank.zero with ax0 := 0x0000 } }
    (fun t => (t.prim.ar, t.astat, t.pc)) = some (0x8000, 0x06, 0x0101) := by decide

theorem test_subbXY : after 0x22C00F { at100 with prim := { Bank.zero with ax0 := 0x0005, ay0 := 0x0005 } }
    (fun t => (t.prim.ar, t.astat, t.pc)) = some (0xFFFF, 0x02, 0x0101) := by decide

theorem test_subbXK : after 0x22C01F { at100 with prim := { Bank.zero with ax0 := 0x0005 } }
    (fun t => (t.prim.ar, t.astat, t.pc)) = some (0x0003, 0x08, 0x0101) := by decide

theorem test_rsubXY : after 0x23200F { at100 with prim := { Bank.zero with ay0 := 0x0003, ax0 := 0x0005 } }
    (fun t => (t.prim.ar, t.astat, t.pc)) = some (0xFFFE, 0x02, 0x0101) := by decide

theorem test_rsubXK : after 0x23201F { at100 with prim := { Bank.zero with ax0 := 0x0003 } }
    (fun t => (t.prim.ar, t.astat, t.pc)) = some (0xFFFE, 0x02, 0x0101) := by decide

theorem test_rsubbXY : after 0x234002 { at100 with prim := { Bank.zero with ay0 := 0x0010, ax0 := 0x0001 } }
    (fun t => (t.prim.ar, t.astat, t.pc)) = some (0x000E, 0x08, 0x0101) := by decide

theorem test_rsubbXK : after 0x23401F { at100 with astat := 0x08 }
    (fun t => (t.prim.ar, t.astat, t.pc)) = some (0x0001, 0x08, 0x0101) := by decide

theorem test_andXY : after 0x23800F
    { at100 with prim := { Bank.zero with ax0 := 0xFF00, ay0 := 0x0FF0 }, astat := 0x0C }
    (fun t => (t.prim.ar, t.astat, t.pc)) = some (0x0F00, 0x00, 0x0101) := by decide

theorem test_orXY : after 0x23A00F { at100 with prim := { Bank.zero with ax0 := 0x00F0, ay0 := 0x8001 } }
    (fun t => (t.prim.ar, t.astat, t.pc)) = some (0x80F1, 0x02, 0x0101) := by decide

theorem test_orXK : after 0x23A03F { at100 with prim := { Bank.zero with ax0 := 0x0001 } }
    (fun t => (t.prim.ar, t.astat, t.pc)) = some (0xFFFF, 0x02, 0x0101) := by decide

theorem test_xorXY : after 0x23C00F { at100 with prim := { Bank.zero with ax0 := 0x5A5A, ay0 := 0x5A5A } }
    (fun t => (t.prim.ar, t.astat, t.pc)) = some (0x0000, 0x01, 0x0101) := by decide

theorem test_xorXK : after 0x23C03F { at100 with prim := { Bank.zero with ax0 := 0xFFFE } }
    (fun t => (t.prim.ar, t.astat, t.pc)) = some (0x0000, 0x01, 0x0101) := by decide

theorem test_tstBit : after 0x239B5F { at100 with prim := { Bank.zero with mr0 := 0x2001 } }
    (fun t => (t.prim.ar, t.astat, t.pc)) = some (0x2000, 0x00, 0x0101) := by decide

theorem test_setBit : after 0x23A21F { at100 with prim := { Bank.zero with ar := 0x0100 } }
    (fun t => (t.prim.ar, t.astat, t.pc)) = some (0x0101, 0x00, 0x0101) := by decide

theorem test_clrBit : after 0x2399FF { at100 with prim := { Bank.zero with ax1 := 0x8001 } }
    (fun t => (t.prim.ar, t.astat, t.pc)) = some (0x0001, 0x00, 0x0101) := by decide

theorem test_tglBit : after 0x23D85F { at100 with prim := { Bank.zero with ax0 := 0x2000 } }
    (fun t => (t.prim.ar, t.astat, t.pc)) = some (0x0000, 0x01, 0x0101) := by decide

theorem test_passY : after 0x220005 { at100 with prim := { Bank.zero with ay0 := 0x1234 } }
    (fun t => (t.prim.ar, t.astat, t.pc)) = some (0x1234, 0x00, 0x0101) := by decide

theorem test_passZero : after 0x22180F at100
    (fun t => (t.prim.ar, t.astat, t.pc)) = some (0x0000, 0x01, 0x0101) := by decide

theorem test_passX : after 0x22780F { at100 with prim := { Bank.zero with ax0 := 0x8000 } }
    (fun t => (t.prim.ar, t.astat, t.pc)) = some (0x8000, 0x02, 0x0101) := by decide

theorem test_passOne : after 0x22380F at100
    (fun t => (t.prim.ar, t.astat, t.pc)) = some (0x0001, 0x00, 0x0101) := by decide

theorem test_passMinusOne : after 0x23180F at100
    (fun t => (t.prim.ar, t.astat, t.pc)) = some (0xFFFF, 0x02, 0x0101) := by decide

theorem test_passK : after 0x22085F at100
    (fun t => (t.prim.ar, t.pc)) = some (0x0020, 0x0101) := by decide

theorem test_passKInc : after 0x22285F at100
    (fun t => (t.prim.ar, t.pc)) = some (0x0021, 0x0101) := by decide

theorem test_passKDec : after 0x23185F at100
    (fun t => (t.prim.ar, t.pc)) = some (0x1FFF, 0x0101) := by decide

theorem test_negX : after 0x23380F { at100 with prim := { Bank.zero with ax0 := 0x0001 } }
    (fun t => (t.prim.ar, t.astat, t.pc)) = some (0xFFFF, 0x02, 0x0101) := by decide

theorem test_negY : after 0x22A004 { at100 with prim := { Bank.zero with ay0 := 0xFFFE }, astat := 0x02 }
    (fun t => (t.prim.ar, t.astat, t.pc)) = some (0x0002, 0x00, 0x0101) := by decide

theorem test_notX : after 0x276001 { at100 with prim := { Bank.zero with ax0 := 0xFFFF } }
    (fun t => (t.prim.af, t.astat, t.pc)) = some (0x0000, 0x01, 0x0101) := by decide

theorem test_notY : after 0x22880F { at100 with prim := { Bank.zero with ay1 := 0x00FF } }
    (fun t => (t.prim.ar, t.astat, t.pc)) = some (0xFF00, 0x02, 0x0101) := by decide

theorem test_absX : after 0x23E00F { at100 with prim := { Bank.zero with ax0 := 0x8000 } }
    (fun t => (t.prim.ar, t.astat, t.pc)) = some (0x8000, 0x16, 0x0101) := by decide

theorem test_incY : after 0x263002 { at100 with prim := { Bank.zero with af := 0x0009 } }
    (fun t => (t.prim.af, t.astat, t.pc)) = some (0x000A, 0x00, 0x0101) := by decide

theorem test_decY : after 0x230800 { at100 with prim := { Bank.zero with ay1 := 0x0001 }, astat := 0x01 }
    (fun t => (t.prim.ar, t.astat, t.pc)) = some (0x0000, 0x09, 0x0101) := by decide

theorem test_divs : after 0x060800
    { at100 with prim := { Bank.zero with ay1 := 0x2000, ay0 := 0x0000, ax0 := 0x4000 } }
    (fun t => (t.prim.af, t.prim.ay0, t.astat, t.pc)) = some (0x4000, 0x0000, 0x00, 0x0101) := by decide

theorem test_divq : after 0x071000
    { at100 with prim := { Bank.zero with af := 0x0000, ay0 := 0x0001, ax0 := 0x4000 } }
    (fun t => (t.prim.af, t.prim.ay0, t.astat, t.pc)) = some (0x8000, 0x0002, 0x20, 0x0101) := by decide

theorem test_noneAlu : after 0x2AE0AA
    { at100 with prim := { Bank.zero with ax0 := 0x0003, ay0 := 0x0003, ar := 0x7777 } }
    (fun t => (t.astat, t.pc)) = some (0x09, 0x0101) := by decide

theorem test_mulSS : after 0x20800F { at100 with prim := { Bank.zero with mx0 := 0x8000, my0 := 0x8000 } }
    (fun t => (mrVal t, mvOf t.astat, t.pc)) = some (0x0080000000, true, 0x0101) := by decide

theorem test_mulSS_2 : after 0x20800F
    { at100 with prim := { Bank.zero with mx0 := 0x8000, my0 := 0x8000 }, mstat := 0x10 }
    (fun t => (mrVal t, mvOf t.astat, t.pc)) = some (0x0040000000, false, 0x0101) := by decide

theorem test_mulSU : after 0x20A00F { at100 with prim := { Bank.zero with mx0 := 0xFFFF, my0 := 0xFFFF } }
    (fun t => (mrVal t, mvOf t.astat, t.pc)) = some (0xFFFFFE0002, false, 0x0101) := by decide

theorem test_mulUS : after 0x20C00F { at100 with prim := { Bank.zero with mx0 := 0xFFFF, my0 := 0xFFFF } }
    (fun t => (mrVal t, mvOf t.astat, t.pc)) = some (0xFFFFFE0002, false, 0x0101) := by decide

theorem test_mulUU : after 0x20F000
    { at100 with prim := { Bank.zero with mx0 := 0xFFFF, mf := 0xFFFF }, astat := 0x01 }
    (fun t => (mrVal t, t.astat, t.pc)) = some (0x01FFFC0002, 0x41, 0x0101) := by decide

theorem test_mulRND : after 0x20200F { at100 with prim := { Bank.zero with mx0 := 0x1234, my0 := 0x5678 } }
    (fun t => (mrVal t, mvOf t.astat, t.pc)) = some (0x000C4C80C0, false, 0x0101) := by decide

theorem test_macSS : after 0x210805
    { at100 with prim := { Bank.zero with mx0 := 0x7FFF, my1 := 0x7FFF, mr2 := 0x00, mr1 := 0x7FFF, mr0 := 0x0000 } }
    (fun t => (mrVal t, t.astat, t.pc)) = some (0x00FFFD0002, 0x40, 0x0101) := by decide

theorem test_macSU : after 0x21200F
    { at100 with prim := { Bank.zero with mx0 := 0xFFFF, my0 := 0x0002, mr2 := 0x00, mr1 := 0x0000, mr0 := 0x0010 } }
    (fun t => (mrVal t, t.pc)) = some (0x000000000C, 0x0101) := by decide

theorem test_macUS : after 0x21400F
    { at100 with prim := { Bank.zero with mx0 := 0x0002, my0 := 0xFFFF, mr2 := 0x00, mr1 := 0x0000, mr0 := 0x0010 } }
    (fun t => (mrVal t, t.pc)) = some (0x000000000C, 0x0101) := by decide

theorem test_macUU : after 0x21600F
    { at100 with prim := { Bank.zero with mx0 := 0xFFFF, my0 := 0x0002, mr2 := 0x00, mr1 := 0x0000, mr0 := 0x0010 } }
    (fun t => (mrVal t, t.pc)) = some (0x000004000C, 0x0101) := by decide

theorem test_macRND : after 0x20400F
    { at100 with prim := { Bank.zero with mx0 := 0x0001, my0 := 0x4000, mr2 := 0x00, mr1 := 0x0001, mr0 := 0x0000 } }
    (fun t => (mrVal t, mvOf t.astat, t.pc)) = some (0x0000020000, false, 0x0101) := by decide

theorem test_msubSS : after 0x21800F { at100 with prim := { Bank.zero with mx0 := 0x0002, my0 := 0x0003 } }
    (fun t => (mrVal t, mvOf t.astat, t.pc)) = some (0xFFFFFFFFF4, false, 0x0101) := by decide

theorem test_msubSU : after 0x21A104
    { at100 with prim := { Bank.zero with mx1 := 0xFFFF, my0 := 0xFFFF }, astat := 0x02 }
    (fun t => (mrVal t, t.astat, t.pc)) = some (0x000001FFFE, 0x02, 0x0101) := by decide

theorem test_msubUS : after 0x21C00F
    { at100 with prim := { Bank.zero with mx0 := 0x0002, my0 := 0xFFFF, mr2 := 0x00, mr1 := 0x0000, mr0 := 0x0010 } }
    (fun t => (mrVal t, t.pc)) = some (0x0000000014, 0x0101) := by decide

theorem test_msubUU : after 0x21E00F
    { at100 with prim := { Bank.zero with mx0 := 0xFFFF, my0 := 0x0002, mr2 := 0x00, mr1 := 0x0004, mr0 := 0x0000 } }
    (fun t => (mrVal t, t.pc)) = some (0x0000000004, 0x0101) := by decide

theorem test_msubRND : after 0x20600F
    { at100 with prim := { Bank.zero with mx0 := 0x0001, my0 := 0x4000, mr2 := 0x00, mr1 := 0x0001, mr0 := 0x0000 } }
    (fun t => (mrVal t, mvOf t.astat, t.pc)) = some (0x0000000000, false, 0x0101) := by decide

theorem test_sqSS : after 0x24861F { at100 with prim := { Bank.zero with sr0 := 0x4000 } }
    (fun t => (t.prim.mf, mvOf t.astat, t.pc)) = some (0x2000, false, 0x0101) := by decide

theorem test_sqUU : after 0x20E01F { at100 with prim := { Bank.zero with mx0 := 0xFFFF } }
    (fun t => (mrVal t, t.astat, t.pc)) = some (0x01FFFC0002, 0x40, 0x0101) := by decide

theorem test_sqRND : after 0x20201F { at100 with prim := { Bank.zero with mx0 := 0x4000 } }
    (fun t => (mrVal t, t.astat, t.pc)) = some (0x0020008000, 0x00, 0x0101) := by decide

theorem test_macSqSS : after 0x21001F { at100 with prim := { Bank.zero with mx0 := 0x0003 } }
    (fun t => (mrVal t, t.pc)) = some (0x0000000012, 0x0101) := by decide

theorem test_macSqUU : after 0x21601F
    { at100 with prim := { Bank.zero with mx0 := 0x0003, mr2 := 0x00, mr1 := 0x0000, mr0 := 0x0001 } }
    (fun t => (mrVal t, t.pc)) = some (0x0000000013, 0x0101) := by decide

theorem test_macSqRND : after 0x20401F
    { at100 with prim := { Bank.zero with mx0 := 0x0100, mr2 := 0x00, mr1 := 0x0001, mr0 := 0x0000 } }
    (fun t => (mrVal t, t.pc)) = some (0x0000038000, 0x0101) := by decide

theorem test_msubSqSS : after 0x21801F { at100 with prim := { Bank.zero with mx0 := 0x0003 } }
    (fun t => (mrVal t, t.pc)) = some (0xFFFFFFFFEE, 0x0101) := by decide

theorem test_msubSqUU : after 0x21E01F
    { at100 with prim := { Bank.zero with mx0 := 0x0003, mr2 := 0x00, mr1 := 0x0000, mr0 := 0x0020 } }
    (fun t => (mrVal t, t.pc)) = some (0x000000000E, 0x0101) := by decide

theorem test_msubSqRND : after 0x20601F
    { at100 with prim := { Bank.zero with mx0 := 0x0100, mr2 := 0x00, mr1 := 0x0003, mr0 := 0x0000 } }
    (fun t => (mrVal t, t.pc)) = some (0x0000018000, 0x0101) := by decide

theorem test_clearMR : after 0x209802
    { at100 with prim := { Bank.zero with mr2 := 0x12, mr1 := 0x3456, mr0 := 0x789A }, astat := 0x40 }
    (fun t => (mrVal t, t.astat, t.pc)) = some (0x0000000000, 0x00, 0x0101) := by decide

theorem test_transferMR : after 0x21180F
    { at100 with prim := { Bank.zero with mr2 := 0x00, mr1 := 0x8000, mr0 := 0x0000 } }
    (fun t => (mvOf t.astat, t.pc)) = some (true, 0x0101) := by decide

theorem test_transferMRRnd : after 0x20580F
    { at100 with prim := { Bank.zero with mr2 := 0x00, mr1 := 0x7FFF, mr0 := 0x8000 } }
    (fun t => (mrVal t, mvOf t.astat, t.pc)) = some (0x0080000000, true, 0x0101) := by decide

theorem test_satMR : after 0x050000
    { at100 with prim := { Bank.zero with mr2 := 0x00, mr1 := 0xFFFD, mr0 := 0x0002 }, astat := 0x40 }
    (fun t => (mrVal t, t.astat, t.pc)) = some (0x007FFFFFFF, 0x40, 0x0101) := by decide

theorem test_lshiftHi : after 0x0E0005 { at100 with prim := { Bank.zero with si := 0xB6A3, se := 0xFC } }
    (fun t => (srVal t, t.pc)) = some (0x0B6A3000, 0x0101) := by decide

theorem test_lshiftHiOr : after 0x0E080F
    { at100 with prim := { Bank.zero with si := 0xB6A3, se := 0xFC, sr1 := 0x0000, sr0 := 0x0001 } }
    (fun t => (srVal t, t.pc)) = some (0x0B6A3001, 0x0101) := by decide

theorem test_lshiftLo : after 0x0E100F { at100 with prim := { Bank.zero with si := 0x00FF, se := 0x04 } }
    (fun t => (srVal t, t.pc)) = some (0x00000FF0, 0x0101) := by decide

theorem test_lshiftLoOr : after 0x0E180F
    { at100 with prim := { Bank.zero with si := 0x00FF, se := 0x04, sr1 := 0x8000, sr0 := 0x0000 } }
    (fun t => (srVal t, t.pc)) = some (0x80000FF0, 0x0101) := by decide

theorem test_ashiftHi : after 0x0E200F { at100 with prim := { Bank.zero with si := 0xB6A3, se := 0xFC } }
    (fun t => (srVal t, t.pc)) = some (0xFB6A3000, 0x0101) := by decide

theorem test_ashiftHiOr : after 0x0E280F
    { at100 with prim := { Bank.zero with si := 0x4000, se := 0xFF, sr1 := 0x0000, sr0 := 0x0005 } }
    (fun t => (srVal t, t.pc)) = some (0x20000005, 0x0101) := by decide

theorem test_ashiftLo : after 0x0E300F { at100 with prim := { Bank.zero with si := 0x8000, se := 0x00 } }
    (fun t => (srVal t, t.pc)) = some (0xFFFF8000, 0x0101) := by decide

theorem test_ashiftLoOr : after 0x0E3804
    { at100 with prim := { Bank.zero with si := 0xB6A3, se := 0x05, sr1 := 0x0000, sr0 := 0x0001 }, astat := 0x02 }
    (fun t => (srVal t, t.pc)) = some (0xFFF6D461, 0x0101) := by decide

theorem test_normHi : after 0x0E420F { at100 with prim := { Bank.zero with ar := 0x4000, se := 0x01 }, astat := 0x08 }
    (fun t => (srVal t, acOf t.astat, t.pc)) = some (0xA0000000, true, 0x0101) := by decide

theorem test_normHiOr : after 0x0E480F
    { at100 with prim := { Bank.zero with si := 0xF6D4, se := 0xFD, sr1 := 0x0000, sr0 := 0x0001 } }
    (fun t => (srVal t, t.pc)) = some (0xB6A00001, 0x0101) := by decide

theorem test_normLo : after 0x0E500F { at100 with prim := { Bank.zero with si := 0x8001, se := 0x03 } }
    (fun t => (srVal t, t.pc)) = some (0x00001000, 0x0101) := by decide

theorem test_normLoOr : after 0x0E580F
    { at100 with prim := { Bank.zero with si := 0x0001, se := 0xFD, sr1 := 0x0001, sr0 := 0x0000 } }
    (fun t => (srVal t, t.pc)) = some (0x00010008, 0x0101) := by decide

theorem test_expHi : after 0x0E600F { at100 with prim := { Bank.zero with si := 0xFFFF } }
    (fun t => (t.prim.se, t.astat, t.pc)) = some (0xF1, 0x80, 0x0101) := by decide

theorem test_expHix : after 0x0E680F { at100 with prim := { Bank.zero with si := 0x4000 }, astat := 0x04 }
    (fun t => (t.prim.se, t.astat, t.pc)) = some (0x01, 0x84, 0x0101) := by decide

theorem test_expLo : after 0x0E730F { at100 with prim := { Bank.zero with se := 0xF1, mr0 := 0xFF00 }, astat := 0x80 }
    (fun t => (t.prim.se, t.pc)) = some (0xE9, 0x0101) := by decide

theorem test_expAdj : after 0x0E780F { at100 with prim := { Bank.zero with sb := 0x17, si := 0xF6D4 } }
    (fun t => (t.prim.sb, t.pc)) = some (0x1D, 0x0101) := by decide

theorem test_lshiftImmHi : after 0x0F07FA { at100 with prim := { Bank.zero with sr1 := 0x1234 } }
    (fun t => (srVal t, t.pc)) = some (0x0048D000, 0x0101) := by decide

theorem test_lshiftImmHiOr : after 0x0F0804
    { at100 with prim := { Bank.zero with si := 0x00FF, sr1 := 0xF000, sr0 := 0x000F } }
    (fun t => (srVal t, t.pc)) = some (0xFFF0000F, 0x0101) := by decide

theorem test_lshiftImmLo : after 0x0F1000 { at100 with prim := { Bank.zero with si := 0x8001 } }
    (fun t => (srVal t, t.pc)) = some (0x00008001, 0x0101) := by decide

theorem test_lshiftImmLoOr : after 0x0F1804
    { at100 with prim := { Bank.zero with si := 0x0001, sr1 := 0x0000, sr0 := 0x0001 } }
    (fun t => (srVal t, t.pc)) = some (0x00000011, 0x0101) := by decide

theorem test_ashiftImmHi : after 0x0F2000 { at100 with prim := { Bank.zero with si := 0x8001 } }
    (fun t => (srVal t, t.pc)) = some (0x80010000, 0x0101) := by decide

theorem test_ashiftImmHiOr : after 0x0F28FF
    { at100 with prim := { Bank.zero with si := 0x8000, sr1 := 0x0000, sr0 := 0x0002 } }
    (fun t => (srVal t, t.pc)) = some (0xC0000002, 0x0101) := by decide

theorem test_ashiftImmLo : after 0x0F3000 { at100 with prim := { Bank.zero with si := 0x8001 } }
    (fun t => (srVal t, t.pc)) = some (0xFFFF8001, 0x0101) := by decide

theorem test_ashiftImmLoOr : after 0x0F3E03 { at100 with prim := { Bank.zero with sr1 := 0x1234, sr0 := 0x00F0 } }
    (fun t => (srVal t, t.pc)) = some (0x123407F0, 0x0101) := by decide

theorem test_regMove : after 0x0D000D { at100 with prim := { Bank.zero with mr2 := 0x80 } }
    (fun t => (t.prim.ax0, t.pc)) = some (0xFF80, 0x0101) := by decide

theorem test_regMove_2 : after 0x0D0C60 { at100 with prim := { Bank.zero with ax0 := 0xFFF0 } }
    (fun t => (t.prim.sb, t.pc)) = some (0x10, 0x0101) := by decide

theorem test_loadDreg : after 0x48000C { at100 with prim := { Bank.zero with mr2 := 0x00 } }
    (fun t => (t.prim.mr1, t.prim.mr2, t.pc)) = some (0x8000, 0xFF, 0x0101) := by decide

theorem test_loadReg : after 0x3C0035 { at100 with cntr := 2, cntrValid := true }
    (fun t => (t.cntr, sstat t, t.cntrStack, t.pc)) = some (3, 0x51, [0x0002], 0x0101) := by decide

theorem test_loadReg_2 : after 0x37FFF5 at100
    (fun t => (t.mreg.get 1, t.pc)) = some (0x3FFF, 0x0101) := by decide

theorem test_dmReadDirect : after 0x830008 { at100 with dm := Memory.writeDm [] 0x3000 0x1357 }
    (fun t => (t.prim.si, t.pc)) = some (0x1357, 0x0101) := by decide

theorem test_dmWriteDirect : after 0x9C1002 at100
    (fun t => (Memory.readDm t.dm 0x0100, t.pc)) = some (some 0x0055, 0x0101) := by decide

theorem test_dmRead : after 0x60004D
    { at100 with ireg := zeros.set 3 0x0100, mreg := zeros.set 1 0x0001, dm := Memory.writeDm [] 0x0100 0xABCD }
    (fun t => (t.prim.ay0, t.ireg.get 3, t.pc)) = some (0xABCD, 0x0101, 0x0101) := by decide

theorem test_dmRead_2 : after 0x600040
    { at100 with mstat := 0x02, ireg := zeros.set 0 0x0001, mreg := zeros.set 0 0x0001,
                 dm := Memory.writeDm [] 0x2000 0x00AA }
    (fun t => (t.prim.ay0, t.ireg.get 0, t.pc)) = some (0x00AA, 0x0002, 0x0101) := by decide

theorem test_dmWrite : after 0x6800C8
    { at100 with prim := { Bank.zero with mr1 := 0x1234 }, ireg := zeros.set 2 0x0200, mreg := zeros.set 0 0x0002 }
    (fun t => (Memory.readDm t.dm 0x0200, t.ireg.get 2, t.pc)) = some (some 0x1234, 0x0202, 0x0101) := by decide

theorem test_dmWriteImm : after 0xBBEEF0 { at100 with ireg := zeros.set 4 0x0300 }
    (fun t => (Memory.readDm t.dm 0x0300, t.ireg.get 4, t.pc)) = some (some 0xBEEF, 0x0300, 0x0101) := by decide

theorem test_pmRead : after 0x500039
    { at100 with ireg := zeros.set 6 0x0400, mreg := zeros.set 5 0x0001, pm := Memory.writePm [] 0x0400 0x123456 }
    (fun t => (t.prim.mx1, t.px, t.ireg.get 6, t.pc)) = some (0x1234, 0x56, 0x0401, 0x0101) := by decide

theorem test_pmWrite : after 0x5800A9
    { at100 with prim := { Bank.zero with ar := 0xBEEF }, px := 0x12, ireg := zeros.set 6 0x0400,
                 mreg := zeros.set 5 0x0001 }
    (fun t => (Memory.readPm t.pm 0x0400, t.ireg.get 6, t.pc)) = some (some 0xBEEF12, 0x0401, 0x0101) := by decide

theorem test_ioRead : after 0x017FF7 at100
    (fun t => (t.draws, t.pc)) = some (1, 0x0101) := by decide

theorem test_ioWrite : after 0x018170 { at100 with prim := { Bank.zero with ax0 := 0x00AB } }
    (fun t => (t.events, t.pc)) = some ([.devWrite .io 23 0x0000AB], 0x0101) := by decide

theorem test_jump : after 0x180100 { at100 with cntr := 5, cntrValid := true, astat := 0x01 }
    (fun t => t.pc) = some 0x0010 := by decide

theorem test_jump_2 : after 0x18010E { at100 with pc := 0x0020, cntr := 3, cntrValid := true }
    (fun t => (t.pc, t.cntr)) = some (0x0010, 2) := by decide

theorem test_jumpInd : after 0x0B000F { at100 with ireg := zeros.set 4 0x0123 }
    (fun t => t.pc) = some 0x0123 := by decide

theorem test_call : after 0x1C2006 { at100 with pc := 0x0040, astat := 0x04 }
    (fun t => (t.pc, sstat t, t.pcStack)) = some (0x0200, 0x54, [0x0041]) := by decide

theorem test_callInd : after 0x0B009F { at100 with ireg := zeros.set 6 0x0300 }
    (fun t => (t.pc, t.pcStack)) = some (0x0300, [0x0101]) := by decide

theorem test_flagOut : after 0x02023C { at100 with astat := 0x40 }
    (fun t => (t.flagOut, t.fl1, t.pc)) = some (true, false, 0x0101) := by decide

theorem test_rts : after 0x0A0003 { at100 with pcStack := [0x0041], astat := 0x01 }
    (fun t => (t.pc, t.pcStack)) = some (0x0041, []) := by decide

theorem test_rti : after 0x0A001C
    { at100 with pcStack := [0x0123], statusStack := [⟨0x01, 0x00, 0x0021⟩], astat := 0x40 }
    (fun t => (t.pc, t.astat, t.mstat, t.imask, t.pcStack)) = some (0x0123, 0x01, 0x00, 0x0021, []) := by decide

theorem test_doUntil : after 0x14105E { at100 with pc := 0x0100 }
    (fun t => (t.pc, sstat t, t.pcStack, t.loopStack)) = some (0x0101, 0x14, [0x0101], [⟨0x0105, .ce⟩]) := by decide

theorem test_idle : after 0x028000 at100
    (fun t => (t.idle, t.idleDiv, t.pc)) = some (true, .d1, 0x0101) := by decide

theorem test_idleN : after 0x028002 at100
    (fun t => (t.idle, t.idleDiv, t.pc)) = some (true, .d32, 0x0101) := by decide

theorem test_stackControl : after 0x04001C
    { at100 with cntr := 7, cntrValid := true, pcStack := [0x0101], cntrStack := [0x0009],
                 loopStack := [⟨0x0105, .ce⟩] }
    (fun t => (t.cntr, sstat t, t.pc)) = some (9, 0x55, 0x0101) := by decide

theorem test_stackControl_2 : after 0x040002 { at100 with mstat := 0x10, imask := 0x0003, astat := 0x41 }
    (fun t => (sstat t, t.statusStack, t.pc)) = some (0x45, [⟨0x41, 0x10, 0x0003⟩], 0x0101) := by decide

theorem test_regFromTop : after 0x0D034F { at100 with pcStack := [0x0411] }
    (fun t => (t.prim.ay0, t.pcPopPending, t.pc)) = some (0x0411, true, 0x0101) := by decide

theorem test_topFromReg : after 0x0D0CFA { at100 with prim := { Bank.zero with ar := 0xC123 } }
    (fun t => (t.pcStack, t.pc)) = some ([0x0123], 0x0101) := by decide

theorem test_modeControl : after 0x0C3800 { at100 with mstat := 0x08 }
    (fun t => (t.mstat, t.pc)) = some (0x10, 0x0101) := by decide

theorem test_modify : after 0x090000
    { at100 with ireg := zeros.set 0 0x0104, mreg := zeros.set 0 0x0003, lreg := zeros.set 0 0x0005 }
    (fun t => (t.ireg.get 0, t.pc)) = some (0x0102, 0x0101) := by decide

theorem test_modify_2 : after 0x090000
    { at100 with ireg := zeros.set 0 0x0100, mreg := zeros.set 0 0x3FFF, lreg := zeros.set 0 0x0005 }
    (fun t => (t.ireg.get 0, t.pc)) = some (0x0104, 0x0101) := by decide

theorem test_nop : after 0x000000 { at100 with astat := 0x5A }
    (fun t => (t.astat, t.pc)) = some (0x5A, 0x0101) := by decide

theorem test_nopType9 : after 0x200000 { at100 with prim := { Bank.zero with ar := 0x0007 }, astat := 0x01 }
    (fun t => (t.astat, t.prim.ar, t.pc)) = some (0x01, 0x0007, 0x0101) := by decide

theorem test_enaInts : after 0x040060 { at100 with intsEn := false }
    (fun t => (t.intsEn, t.pc)) = some (true, 0x0101) := by decide

theorem test_disInts : after 0x040040 at100
    (fun t => (t.intsEn, t.pc)) = some (false, 0x0101) := by decide

theorem test_compDmRead : after 0x626000
    { at100 with prim := { Bank.zero with ax0 := 0x0001, ay0 := 0x0002 }, ireg := zeros.set 0 0x0100,
                 mreg := zeros.set 0 0x0001, dm := Memory.writeDm [] 0x0100 0x0005 }
    (fun t => (t.prim.ar, t.prim.ax0, t.ireg.get 0, t.astat, t.pc)) =
      some (0x0003, 0x0005, 0x0101, 0x00, 0x0101) := by decide

theorem test_compPmRead : after 0x567040
    { at100 with prim := { Bank.zero with ax0 := 0x0001, af := 0x0002 }, ireg := zeros.set 4 0x0400,
                 mreg := zeros.set 4 0x0001, pm := Memory.writePm [] 0x0400 0x123456 }
    (fun t => (t.prim.af, t.prim.ay0, t.px, t.ireg.get 4, t.pc)) =
      some (0x0003, 0x1234, 0x56, 0x0401, 0x0101) := by decide

theorem test_shiftDmRead : after 0x120080
    { at100 with prim := { Bank.zero with si := 0x00FF, se := 0x04 }, ireg := zeros.set 0 0x0100,
                 mreg := zeros.set 0 0x0001, dm := Memory.writeDm [] 0x0100 0x1234 }
    (fun t => (srVal t, t.prim.si, t.ireg.get 0, t.pc)) = some (0x0FF00000, 0x1234, 0x0101, 0x0101) := by decide

theorem test_shiftPmRead : after 0x113A56
    { at100 with prim := { Bank.zero with ar := 0x8000, se := 0xFF, sr1 := 0x0000, sr0 := 0x0001 },
                 ireg := zeros.set 5 0x0010, mreg := zeros.set 6 0x0002, pm := Memory.writePm [] 0x0010 0xABCDEF }
    (fun t => (srVal t, t.prim.ay1, t.px, t.ireg.get 5, t.pc)) =
      some (0xFFFFC001, 0xABCD, 0xEF, 0x0012, 0x0101) := by decide

theorem test_compMove : after 0x2A600C
    { at100 with prim := { Bank.zero with ax0 := 0x7000, ay0 := 0x2000, mr1 := 0x0042 }, mstat := 0x08 }
    (fun t => (t.prim.ar, t.prim.ax0, t.astat, t.pc)) = some (0x7FFF, 0x0042, 0x06, 0x0101) := by decide

theorem test_shiftMove : after 0x10208A
    { at100 with prim := { Bank.zero with si := 0x8000, se := 0xFF, ar := 0x0001 } }
    (fun t => (srVal t, t.prim.si, t.pc)) = some (0xC0000000, 0x0001, 0x0101) := by decide

theorem test_compDmWrite : after 0x6A60A0
    { at100 with prim := { Bank.zero with ar := 0x1111, ax0 := 0x0001, ay0 := 0x0002 }, ireg := zeros.set 0 0x0100,
                 mreg := zeros.set 0 0x0001 }
    (fun t => (Memory.readDm t.dm 0x0100, t.prim.ar, t.ireg.get 0, t.pc)) =
      some (some 0x1111, 0x0003, 0x0101, 0x0101) := by decide

theorem test_compPmWrite : after 0x5880C0
    { at100 with prim := { Bank.zero with mx0 := 0x4000, my0 := 0x4000, mr2 := 0x00, mr1 := 0x0ABC, mr0 := 0x0000 },
                 px := 0x00, ireg := zeros.set 4 0x0500, mreg := zeros.set 4 0x0001 }
    (fun t => (mrVal t, Memory.readPm t.pm 0x0500, t.ireg.get 4, t.pc)) =
      some (0x0020000000, some 0x0ABC00, 0x0501, 0x0101) := by decide

theorem test_shiftDmWrite : after 0x12C0FA
    { at100 with prim := { Bank.zero with si := 0xF6D4, se := 0xFD, sr1 := 0x1111, sr0 := 0x0000 },
                 ireg := zeros.set 2 0x0200, mreg := zeros.set 2 0x0001 }
    (fun t => (srVal t, Memory.readDm t.dm 0x0200, t.ireg.get 2, t.pc)) =
      some (0xB6A00000, some 0x1111, 0x0201, 0x0101) := by decide

theorem test_shiftPmWrite : after 0x1196EA
    { at100 with prim := { Bank.zero with se := 0x04, sr1 := 0x0000, sr0 := 0x00FF }, px := 0x77,
                 ireg := zeros.set 6 0x0600, mreg := zeros.set 6 0x0001 }
    (fun t => (srVal t, Memory.readPm t.pm 0x0600, t.ireg.get 6, t.pc)) =
      some (0x00000FF0, some 0x00FF77, 0x0601, 0x0101) := by decide

theorem test_dualRead : after 0xFC00EE
    { at100 with ireg := (zeros.set 3 0x0100).set 7 0x0400, mreg := (zeros.set 2 0x0001).set 6 0x0001,
                 dm := Memory.writeDm [] 0x0100 0x0007, pm := Memory.writePm [] 0x0400 0x000900 }
    (fun t => (t.prim.mx1, t.prim.my1, t.px, t.ireg.get 3, t.ireg.get 7, t.pc)) =
      some (0x0007, 0x0009, 0x00, 0x0101, 0x0401, 0x0101) := by decide

theorem test_compDualRead : after 0xE96000
    { at100 with prim := { Bank.zero with mx0 := 0x0003, my0 := 0x0004 }, ireg := (zeros.set 0 0x0100).set 4 0x0400,
                 mreg := (zeros.set 0 0x0001).set 4 0x0001, dm := Memory.writeDm [] 0x0100 0x0005,
                 pm := Memory.writePm [] 0x0400 0x000600 }
    (fun t => (mrVal t, t.prim.mx0, t.prim.my0, t.px, t.ireg.get 0, t.ireg.get 4, t.pc)) =
      some (0x0000000018, 0x0005, 0x0006, 0x00, 0x0101, 0x0401, 0x0101) := by decide

/-! ## What stops: one step for each fault (R452) -/

/-- The fault of one step that fetches the word `w`. -/
def stops (w : Nat) (s : State) : Option Fault :=
  match step (s.withFetchWord 24 w) with
  | .fault f => some f
  | _ => none

/-- Reserved words of 95_test_vectors.md (R180): a constant with BO = 10, DIVS with Yop = 00, shifter xop 001, SSTAT
as a destination, IFC as a source, type 7 with a data register, top byte 0x08. -/
theorem test_reserved_words :
    ([0x22602F, 0x060000, 0x0E010F, 0x0D0C20, 0x0D030C, 0x300005, 0x080000].map fun w => stops w at100) =
      [some (.reservedInstruction 0x22602F), some (.reservedInstruction 0x060000),
       some (.reservedInstruction 0x0E010F), some (.reservedInstruction 0x0D0C20),
       some (.reservedInstruction 0x0D030C), some (.reservedInstruction 0x300005),
       some (.reservedInstruction 0x080000)] := by decide

/-- Words of parts that lack an option (R180 item 6). -/
theorem test_reserved_on_other_parts :
    ([0x040060, 0x018170, 0x02043F, 0x028001, 0x22601F].map fun w => stops w { at100 with cfg := bare }) =
      [some (.reservedInstruction 0x040060), some (.reservedInstruction 0x018170),
       some (.reservedInstruction 0x02043F), some (.reservedInstruction 0x028001),
       some (.reservedInstruction 0x22601F)] := by decide

theorem test_fault_uninitRead : stops 0x830008 at100 = some (.uninitRead .dm 0x3000) := by decide

/-- A CNTR whose count has expired is not read (R318); one that nothing has written, and a valid one, are (log 12). -/
theorem test_fault_uninitCntr :
    (let s := ceTick { at100 with cntr := 1, cntrValid := true }
     stops 0x0D0305 s = some .uninitCntr ∧ stops 0x9C0005 s = some .uninitCntr) ∧
    after 0x0D0305 at100 (fun t => t.prim.ax0) = some 0 ∧
    after 0x0D0305 { at100 with cntr := 7, cntrValid := true } (fun t => t.prim.ax0) = some 7 := by decide

theorem test_fault_unmappedAccess :
    stops 0x93000A { at100 with cfg := { Config.standard with dmMap := [⟨0, 0x3000, .ram⟩] } } =
      some (.unmappedAccess .dm 0x3000) := by decide

theorem test_fault_circular :
    stops 0x090000 { at100 with ireg := zeros.set 0 0x100, mreg := zeros.set 0 7, lreg := zeros.set 0 5 } =
      some .circular := by decide

/-- A store to the address of the next instruction (R112). -/
theorem test_fault_fetchAfterPmWrite : step { at100 with pmDirty := [0x100] } = .fault (.fetchAfterPmWrite 0x100) := by
  rfl

theorem test_fault_ceWithZeroCounter : stops 0x18010E at100 = some .ceWithZeroCounter := by decide

theorem test_fault_loopEnd : stops 0x18010F (atEnd .ce 0 2) = some .loopEnd := by decide

theorem test_fault_pcPopHazard :
    stops 0x0A000F { at100 with pcStack := [0x41], pcPopPending := true } = some .pcPopHazard := by decide

theorem test_fault_indeterminate : stops 0x6260A0 at100 = some .indeterminate := by decide

theorem test_fault_stackOverflow :
    stops 0x1C111F { at100 with pcStack := List.replicate 16 0 } = some (.stackOverflow .pc) := by decide

theorem test_fault_stackUnderflow : stops 0x0A000F at100 = some (.stackUnderflow .pc) := by decide

/-! ## Instructions no word or no value of the oracle shows -/

/-- `xop AND constant` as a term: its words read as TSTBIT and CLRBIT (R197). -/
theorem test_andXK :
    (ran (.andXK .result .ax0 ⟨4, false⟩ .always) { at100 with prim := { Bank.zero with ax0 := 0x1F } }).map
      (fun t => (t.prim.ar, t.astat)) = some (0x10, 0) := by decide

/-- The word of `xop AND constant` is TSTBIT's. -/
theorem test_decode_andXK : decode std 0b00100_0_11100_01_000_00_0_1_1111 = some (.tstBit .result 4 .ax0 .always) := by
  decide

/-- FLAG_IN is free: whichever level it has, one value is drawn. -/
theorem test_jumpFlagIn : (ran (.jumpFlagIn true 5) at100).map (fun t => t.draws) = some 1 := by
  simp only [ran, exec, execJumpFlagIn, runBranch, runTransfer, testFlagIn]
  cases (drawnValue at100).getLsbD 0 <;> rfl

theorem test_callFlagIn : (ran (.callFlagIn false 5) at100).map (fun t => t.draws) = some 1 := by
  simp only [ran, exec, execCallFlagIn, runBranch, runTransfer, testFlagIn]
  cases (drawnValue at100).getLsbD 0 <;> rfl

/-! ## Interrupts, idle, the delayed pop -/

/-- A part with two sources: mask bits 2 and 0, the first with the higher priority. -/
def twoSources : Config :=
  { Config.standard with irqTable :=
      [⟨"IRQ2", 0x04, 5, 0, 0, .keep 0x1F, true, true, none, none, false⟩,
       ⟨"TIMER", 0x28, 0, 5, 1, .const 0, true, true, some 0, some 6, true⟩] }

/-- Both sources pending and unmasked, the core idle. -/
def waiting : State :=
  { at100 with cfg := twoSources, imask := 0x21, irqPending := 3, astat := 0x41, mstat := 0x20, idle := true }

/-- The state after a step. -/
def stepped (s : State) : Option State :=
  match step s with
  | .next t => some t
  | _ => none

/-- The source with the higher priority is taken (R464, R465). -/
theorem test_interrupt_taken :
    (stepped waiting).map (fun t => (t.pc, t.pcStack, t.imask, t.irqPending, t.idle)) =
      some (0x04, [0x100], 0x01, 2, false) ∧
    (stepped waiting).map (fun t => t.statusStack) = some [⟨0x41, 0x20, 0x21⟩] := by decide

/-- A request of the timer sets no latch while TIMER is 0 (R471). -/
theorem test_timer_stopped :
    (environmentStep { at100 with cfg := twoSources, irqInputs := [0xFFFF] }).irqPending = 1 := by decide

/-- IDLE waits while nothing is eligible. -/
theorem test_idle_waits : step { at100 with idle := true } = .next { at100 with idle := true } := by rfl

/-- The pop of `reg = TOPPCSTACK` comes at the end of the following instruction (R396). -/
theorem test_delayed_pop :
    after 0 { at100 with pcStack := [0x41, 7], pcPopPending := true } (fun t => (t.pcStack, t.pcPopPending)) =
      some ([7], false) := by decide

/-- An IFC write sets and clears latches (R463). -/
theorem test_ifc :
    (writeIfc 0x0041 { at100 with cfg := twoSources, irqPending := 3 }).irqPending = 3 ∧
    (writeIfc 0x0001 { at100 with cfg := twoSources, irqPending := 3 }).irqPending = 1 := by decide

/-! ## The encoder -/

/-- Encoding gives the words of 95_test_vectors.md. -/
theorem test_encode :
    encode (.subXY .result .ax0 .ay0 .ge) = 0x22E005 ∧ encode (.tstBit .feedback 5 .ar .always) = 0x278A5F ∧
    encode (.macSS .result .mx0 .my1 .ge) = 0x210805 ∧ encode (.ashiftLoOr .si .lt) = 0x0E3804 ∧
    encode (.regMove (.reg (.i 7)) (.reg (.dreg .ar))) = 0x0D083A ∧ encode (.dmRead .one .ay0 3 1) = 0x60004D ∧
    encode (.jumpFlagIn true 0x1234) = 0x032346 ∧ encode (.doUntil 0x0105 .ce) = 0x14105E ∧
    encode (.stackControl true true true .keep) = 0x04001C := by decide

/-- The host's view of the decoder. -/
theorem test_decodeTableWord : decodeTableWord 24 0x22E005 = some (.subXY .result .ax0 .ay0 .ge) := by decide

/-! ## Well-formedness: an ill-formed term for each check -/

theorem test_illformed_alu :
    wellFormed std (.addXY .result .ax0 .zero .always) = false ∧ wellFormed std (.passY .result .zero .always) = false ∧
    wellFormed std (.andXK .result .ax0 ⟨0, false⟩ .always) = false ∧
    wellFormed std (.orXK .result .ax0 ⟨0, false⟩ .always) = false ∧
    wellFormed std (.xorXK .result .ax0 ⟨0, false⟩ .always) = false ∧
    wellFormed std (.divs .ay0 .ax0) = false ∧ wellFormed std (.divs .zero .ax0) = false := by decide

theorem test_illformed_other :
    wellFormed std (.mulSS .result .mx0 .zero .always) = false ∧ wellFormed std (.loadReg (.reg (.dreg .ar)) 0) = false ∧
    wellFormed std (.regFromTop .astat) = false ∧ wellFormed std (.topFromReg .cntr) = false ∧
    wellFormed std (.compMove .feedback none .ax0 .ar) = false ∧
    wellFormed std (.compMove .result (some (.alu .add .ax0 .ay0)) .ar .ar) = false := by decide

theorem test_illformed_on_other_parts :
    wellFormed bare (.addXK .result .ax0 ⟨0, false⟩ .always) = false ∧
    wellFormed bare (.passK .result ⟨3, false⟩ .always) = false ∧
    wellFormed bare (.orXK .result .ax0 ⟨0, true⟩ .always) = false ∧
    wellFormed bare (.tstBit .result 0 .ax0 .always) = false ∧ wellFormed bare (.noneAlu .add .ax0 .ay0) = false ∧
    wellFormed bare (.sqSS .result .mx0 .always) = false ∧ wellFormed bare (.msubSqSS .result .mx0 .always) = false ∧
    wellFormed bare (.ioRead .ax0 0) = false ∧ wellFormed bare (.flagOut .set .keep .keep .keep .always) = false ∧
    wellFormed bare (.idleN .d16) = false ∧ wellFormed bare .enaInts = false := by decide

/-- The TOPPCSTACK forms exist on every part (R395 to R397, log 17): the words of 45_misc.md's examples. -/
theorem test_topPcStack_on_other_parts :
    decode bare 0x0D030F = some (.regFromTop (.dreg .ax0)) ∧ decode bare 0x0D0EF3 = some (.topFromReg (.i 7)) := by
  decide

/-! ## The special cases of R221 and R260 -/

/-- PASS constant with the constant 1 (word 0x22001F: AMF 10000, n = 0, BO = 01) defines the flags: 1 is neither zero
nor negative, AV and AC are cleared; AS, AQ, MV and SS stay; nothing is drawn. -/
theorem test_passK_one :
    after 0x22001F { at100 with astat := 0xFF } (fun t => (t.prim.ar, t.astat, t.draws)) = some (1, 0xF0, 0) := by
  decide

/-- Constant - 1 for the constants 2 and 1 (R200, R204: y + FFFF carries). -/
theorem test_passKDec_defined :
    after 0x23005F at100 (fun t => (t.prim.ar, t.astat, t.draws)) = some (1, 0x08, 0) ∧
    after 0x23001F at100 (fun t => (t.prim.ar, t.astat, t.draws)) = some (0, 0x09, 0) := by decide

/-- xop * 0 (RND) is the clear (R260, word 0x20380F), also beside a register move (log 30). -/
theorem test_mulRND_zero :
    after 0x20380F { at100 with astat := 0x40, prim := { Bank.zero with mr2 := 0x12, mr1 := 0x3456, mr0 := 0x789A } }
      (fun t => (mrVal t, t.astat)) = some (0, 0) ∧
    (ran (.compMove .result (some (.mac .mul .rnd .mx0 .zero)) .ax0 .ax1) at100).map mrVal = some 0 := by decide

/-- An expired NOT CE takes the outer count from the counter stack (R162, log 29). -/
theorem test_notCe_expired :
    after 0x18010E { at100 with cntr := 1, cntrValid := true, cntrStack := [9] }
      (fun t => (t.pc, t.cntr, t.cntrStack, t.cntrValid)) = some (0x101, 9, [], true) := by decide

/-! ## Witnesses: states that meet the hypotheses of the obligations -/

/-- A part with ROM and devices: data memory RAM below 0x2000, then ROM, then a device from 0x3000; program memory
the same. -/
def mapped : Config :=
  { Config.standard with
    dmMap := [⟨0, 0x2000, .ram⟩, ⟨0x2000, 0x1000, .rom⟩, ⟨0x3000, 0x0FFF, .device⟩]
    pmMap := [⟨0, 0x2000, .ram⟩, ⟨0x2000, 0x1000, .rom⟩, ⟨0x3000, 0x0FFF, .device⟩] }

/-- Of every statement of the form `Runs`, `RunsPlain`, `ShRuns`, `ImmRuns`, of BitOperationsChangeOneBit and of
PassConstantStoresTheConstant: away from a loop's end and at it, with the condition true and false. -/
theorem test_witness_runs :
    CanAdvance at100 ∧ CanAdvance (atEnd .eq 0 0) ∧ CanAdvance (atEnd .eq 1 0) ∧ CanAdvance (atEnd .ce 0 2) ∧
    CanAdvance (atEnd .ce 0 1) ∧ CanTest .eq at100 ∧ CanTest .eq (atEnd .ce 0 1) ∧ CanTest .notCe (atEnd .eq 0 1) ∧
    CanTest .notCe { at100 with cntr := 1 } ∧ condTrue .notCe { at100 with cntr := 1 } = false ∧
    CanTest .notCe { at100 with cntr := 0x3FFF } ∧ condTrue .notCe { at100 with cntr := 0x3FFF } = true ∧
    condTrue .eq at100 = false ∧ condTrue .ne at100 = true := by
  and_intros <;> first | decide | (unfold CanAdvance; decide) | (unfold CanTest; decide)

/-- Of PassConstantStoresTheConstant: each of its three instructions, with a constant whose flags are defined and with
one whose flags are free. -/
theorem test_witness_passConstant :
    CanAdvance at100 ∧ CanTest .always at100 ∧ condTrue .always at100 = true ∧
    (aluOut .passY 0 (constVal ⟨0, false⟩) false).r = 1 ∧ (aluOut .incY 0 (constVal ⟨0, true⟩) false).r = 0xFFFF ∧
    (aluOut .decY 0 (constVal ⟨0, false⟩) false).r = 0 ∧ (aluOut .decY 0 (constVal ⟨1, false⟩) false).r = 1 ∧
    (aluOut .passY 0 (constVal ⟨15, true⟩) false).r = 0x7FFF ∧
    (aluOut .incY 0 (constVal ⟨15, true⟩) false).r = 0x8000 ∧
    (aluOut .decY 0 (constVal ⟨15, false⟩) false).r = 0x7FFF ∧
    (ran (.passK .result ⟨5, false⟩ .always) at100).isSome = true ∧
    (ran (.passKInc .feedback ⟨15, true⟩ .always) at100).isSome = true ∧
    (ran (.passKDec .feedback ⟨0, true⟩ .always) at100).isSome = true := by
  and_intros <;> first | decide | (unfold CanAdvance; decide) | (unfold CanTest; decide)

/-- Of RegisterMoveCopies, DirectMemoryMoves, TopOfPcStackMoves and LoadImmediateLoads: a source that can be read and
one that cannot, a write that saves the count onto the last free place, and writes
at a loop's end. -/
theorem test_witness_moves :
    CanAdvance at100 ∧ CanRead .sstat at100 ∧ CanRead (.reg .cntr) at100 ∧
    ¬ CanRead (.reg .cntr) { at100 with cntrExpired := true } ∧ at100.cntrValid = false ∧ CanWrite (.reg .px) at100 ∧
    CanWrite (.reg .cntr) { at100 with cntrValid := true, cntrStack := [1, 2, 3] } ∧
    CanWrite .owrcntr (atEnd .eq 0 0) ∧ CanWrite .ifc (atEnd .ce 0 1) ∧ CanAdvance (atEnd .ce 0 1) := by
  and_intros <;> first | decide | (unfold CanAdvance; decide) | (unfold CanRead; decide)

/-- Of CounterWriteOverflows. -/
theorem test_witness_counterOverflow :
    let s := { at100 with cntrValid := true, cntrStack := [1, 2, 3, 4] }
    CanAdvance s ∧ (atLoopEnd s = true → endsOnCe s = false) ∧ s.cntrValid = true ∧
      s.cfg.cntrStackDepth ≤ s.cntrStack.length ∧
      DmReads 0x104 { s with dm := Memory.writeDm [] 0x104 9 } 9 { s with dm := Memory.writeDm [] 0x104 9 } := by
  refine ⟨by unfold CanAdvance; decide, by decide, by decide, by decide, by decide, rfl⟩

/-- Of DirectMemoryMoves: reads from the last word of RAM, from ROM and from a device, writes to RAM and a device. -/
theorem test_witness_directMemory :
    let s := { at100 with cfg := mapped, dm := Memory.writeDm (Memory.writeDm [] 0x1FFF 5) 0x2000 7 }
    CanAdvance s ∧ CanWrite (.reg .px) s ∧ DmReads 0x1FFF s 5 s ∧ DmReads 0x2000 s 7 s ∧
      (∃ v t, DmReads 0x3000 s v t) ∧ Writable s.cfg.dmMap 0x1FFF ∧ Writable s.cfg.dmMap 0x3000 := by
  refine ⟨?_, ?_, ⟨by decide, rfl⟩, ⟨by decide, rfl⟩, ⟨_, _, rfl, rfl⟩, .inl (by decide), .inr (by decide)⟩ <;>
    first | (unfold CanAdvance; decide) | (unfold CanWrite; decide)

/-- I0 at the last word of a buffer of five, I4 linear at the top of memory, one word behind each. -/
def buffers : State :=
  { at100 with ireg := (zeros.set 0 0x104).set 4 0x1FFF, mreg := (zeros.set 0 1).set 4 0x3FFF, lreg := zeros.set 0 5,
               dm := Memory.writeDm [] 0x104 0xAB, pm := Memory.writePm [] 0x1FFF 0x123456 }

theorem test_buffers_nextI : NextI .one 0 0 buffers 0x100 ∧ NextI .two 0 0 buffers 0x1FFE := by
  refine ⟨?_, ?_⟩
  · dsimp only [NextI]
    split
    · exact absurd ‹_› (by decide)
    refine ⟨3, 0x100, by decide, ?_, by decide, by decide, by decide, by decide, by decide, ?_⟩
    · intro k hk; interval_cases k <;> decide
    · exact ⟨-1, by decide⟩
  · dsimp only [NextI]
    split
    · decide
    · rename_i h
      exact absurd (by decide) h

/-- Of IndirectReadsLoad, IndirectWritesStore, ComputeWithMemoryRead, ComputeWithMemoryWrite and DualReadsLoad. -/
theorem test_witness_indirect :
    CanAdvance buffers ∧ NextI .one 0 0 buffers 0x100 ∧ NextI .two 0 0 buffers 0x1FFE ∧
    DmReads (dagAddr .one 0 buffers) buffers 0xAB buffers ∧
    PmReads (dagAddr .two 0 buffers) buffers 0x123456 buffers ∧
    Writable buffers.cfg.dmMap (dagAddr .one 0 buffers) ∧ Writable buffers.cfg.pmMap (dagAddr .two 0 buffers) ∧
    ¬ collides .result (.alu .add .ax0 .ay0) .ax0 ∧ ¬ collides .feedback (.mac .mul .ss .mx0 .my0) .mr0 ∧
    ¬ shiftCollides .lshiftHi .si ∧ ¬ shiftCollides .expAdj .se := by
  refine ⟨by unfold CanAdvance; decide, test_buffers_nextI.1, test_buffers_nextI.2, ⟨by decide, rfl⟩,
    ⟨by decide, rfl⟩, .inl (by decide), .inl (by decide), ?_, ?_, ?_, ?_⟩ <;>
    simp [collides, shiftCollides]

/-- Of IndirectReadsLoad's and IndirectWritesStore's device cases, read through a device's first address. -/
theorem test_witness_device :
    let s := { at100 with cfg := mapped, ireg := zeros.set 4 0x3000 }
    (∃ w t, PmReads (dagAddr .two 0 s) s w t) ∧ Writable s.cfg.pmMap (dagAddr .two 0 s) :=
  ⟨⟨_, _, rfl, rfl⟩, .inr (by decide)⟩

/-- Of AddressGenerators: a modify that no rule covers (M longer than the buffer). -/
theorem test_witness_circular :
    let s := { buffers with mreg := zeros.set 0 7 }
    CanAdvance s ∧ ¬ ∃ a, NextI .one 0 0 s a := by
  refine ⟨by unfold CanAdvance; decide, ?_⟩
  rintro ⟨a, h⟩
  dsimp only [NextI] at h
  split at h
  · rename_i h0
    revert h0
    decide
  · obtain ⟨n, base, -, -, -, -, h, -⟩ := h
    revert h
    decide

/-- Of MemoryFaults, direct: past the last region, the first word of ROM, and the last word of RAM, never written,
and the end of a CE loop. -/
theorem test_witness_memoryFaults :
    let s := { at100 with cfg := mapped }
    CanAdvance s ∧ (atLoopEnd s = true → endsOnCe s = false) ∧ CanAdvance { atEnd .ce 0 2 with cfg := mapped } ∧
    backing s.cfg.dmMap (0x3FFF : Addr).toNat = none ∧
    backing s.cfg.dmMap (0x2000 : Addr).toNat = some .rom ∧ backing s.cfg.dmMap (0x1FFF : Addr).toNat = some .ram ∧
    Memory.readDm s.dm 0x1FFF = none := by
  and_intros <;> first | decide | (unfold CanAdvance; decide)

/-- A linear I0 and I4 at one address, on the part with ROM and devices. -/
def pointing (a : Addr) : State := { at100 with cfg := mapped, ireg := (zeros.set 0 a).set 4 a }

theorem test_pointing_nextI (a : Addr) :
    NextI .one 0 0 (pointing a) (BitVec.ofInt 14 a.toNat) ∧ NextI .two 0 0 (pointing a) (BitVec.ofInt 14 a.toNat) := by
  have h1 : (pointing a).ireg.get (dagIndex .one 0) = a := rfl
  have h2 : (pointing a).ireg.get (dagIndex .two 0) = a := rfl
  refine ⟨?_, ?_⟩ <;> dsimp only [NextI] <;> split
  · rw [h1]; simp [pointing, zeros, at100, State.reset]
  · rename_i h; exact absurd (by rfl) h
  · rw [h2]; rfl
  · rename_i h; exact absurd (by rfl) h

/-- Of MemoryFaults, indirect: instructions of each kind with no two writers, and addresses with nothing behind them,
ROM, RAM never written, and (for the second half of a dual read) a device behind the first. -/
theorem test_witness_indirectFaults :
    (readsDm (.compDmRead .one .result (.alu .add .ax0 .ay0) .ax0 0 0) = some (.one, 0, 0) ∧
      ¬ twoWriters (.compDmRead .one .result (.alu .add .ax0 .ay0) .ax0 0 0)) ∧
    (writesDm (.dmWriteImm .two 5 0 0) = some (.two, 0, 0) ∧ ¬ twoWriters (.dmWriteImm .two 5 0 0)) ∧
    (readsPm (.shiftPmRead .expLo .si .ax0 0 0) = some (0, 0) ∧ ¬ twoWriters (.shiftPmRead .expLo .si .ax0 0 0)) ∧
    (writesPm (.pmWrite .ar 0 0) = some (0, 0) ∧ ¬ twoWriters (.pmWrite .ar 0 0)) ∧
    readsBoth (.dualRead .ay0 .ax0 0 0 0 0) = some ((0, 0), (0, 0)) ∧
    (∀ a, CanAdvance (pointing a)) ∧
    (∀ g, dagAddr g 0 (pointing 0x3FFF) = 0x3FFF ∧ dagAddr g 0 (pointing 0x2000) = 0x2000 ∧
      dagAddr g 0 (pointing 0x1FFF) = 0x1FFF ∧ dagAddr g 0 (pointing 0x3000) = 0x3000) ∧
    (∀ m, m = mapped.dmMap ∨ m = mapped.pmMap → backing m 0x3FFF = none ∧ backing m 0x2000 = some .rom ∧
      backing m 0x1FFF = some .ram ∧ backing m 0x3000 = some .device) ∧
    Memory.readDm (pointing 0x1FFF).dm 0x1FFF = none ∧ Memory.readPm (pointing 0x1FFF).pm 0x1FFF = none ∧
    (let s := { pointing 0x1FFF with pm := Memory.writePm [] 0x1FFF 3 }
     PmReads (dagAddr .two 0 s) s 3 s) := by
  refine ⟨⟨rfl, by simp [twoWriters, collides]⟩, ⟨rfl, id⟩, ⟨rfl, by simp [twoWriters, shiftCollides]⟩, ⟨rfl, id⟩, rfl,
    fun a => ?_, ?_, ?_, by decide, by decide, ⟨by decide, rfl⟩⟩
  · intro h; exact absurd h (by simp [atLoopEnd, pointing, at100, State.reset])
  · rintro (_ | _) <;> decide
  · rintro m (rfl | rfl) <;> decide

/-- Of JumpGoesToItsTarget, CallPushesTheReturnAddress, ReturnFromSubroutine and ReturnFromInterrupt: every clause,
with the PC stack one short of full, full, and empty. -/
theorem test_witness_transfers :
    (CanTest .ne at100 ∧ condTrue .ne at100 = true ∧ atLoopEnd at100 = false ∧ at100.pcPopPending = false ∧
      at100.pcStack = [] ∧ at100.statusStack = []) ∧
    (let s := atEnd .eq 0 0
     CanTest .ne s ∧ condTrue .ne s = true ∧ atLoopEnd s = true ∧ s.pcPopPending = false) ∧
    (CanTest .eq at100 ∧ condTrue .eq at100 = false ∧ CanAdvance at100) ∧
    (let s := { at100 with cntr := 1, cntrValid := true, cntrStack := [9] }
     CanTest .notCe s ∧ condTrue .notCe s = false ∧ CanAdvance s ∧ s.pcPopPending = false) ∧
    (let s := { at100 with pcStack := List.replicate 15 0 }
     s.pcStack.length < 16 ∧ atLoopEnd s = false ∧ s.pcStack = 0 :: List.replicate 14 0) ∧
    (let s := { at100 with pcStack := List.replicate 16 0, statusStack := [⟨1, 0, 0x21⟩] }
     16 ≤ s.pcStack.length ∧ atLoopEnd s = false ∧ s.statusStack = [⟨1, 0, 0x21⟩]) := by
  and_intros <;> first | decide | (unfold CanAdvance; decide) | (unfold CanTest; decide)

/-- Of FlagInDecides: away from a loop's end with one place left on the PC stack and with none, and at a loop's end. -/
theorem test_witness_flagIn :
    (let s := { at100 with pcStack := List.replicate 15 0 }
     atLoopEnd s = false ∧ s.pcPopPending = false ∧ s.pcStack.length < 16) ∧
    (let s := { at100 with pcStack := List.replicate 16 0 }
     atLoopEnd s = false ∧ s.pcPopPending = false ∧ 16 ≤ s.pcStack.length) ∧
    atLoopEnd (atEnd .eq 0 0) = true ∧ CanAdvance (atEnd .eq 0 0) := by
  and_intros <;> first | decide | (unfold CanAdvance; decide)

/-- Of DoUntilPushesTheLoop and IdleWaits: three loops and fifteen addresses, then four, then sixteen. -/
theorem test_witness_doUntil :
    (let s := { at100 with loopStack := List.replicate 3 ⟨0x200, .ce⟩, pcStack := List.replicate 15 0 }
     atLoopEnd s = false ∧ s.pcPopPending = false ∧ s.loopStack.length < 4 ∧ s.pcStack.length < 16) ∧
    (let s := { at100 with loopStack := List.replicate 4 ⟨0x200, .ce⟩ }
     atLoopEnd s = false ∧ s.pcPopPending = false ∧ 4 ≤ s.loopStack.length) ∧
    (let s := { at100 with pcStack := List.replicate 16 0 }
     atLoopEnd s = false ∧ s.pcPopPending = false ∧ 16 ≤ s.pcStack.length) := by decide

/-- Of LoopRepeatsOrEnds: each of its five clauses at the end of a loop. -/
theorem test_witness_loops :
    (∀ t a c, (atEnd t a c).pcPopPending = false ∧ (atEnd t a c).loopStack = ⟨(atEnd t a c).pc, t⟩ :: [] ∧
      (atEnd t a c).pcStack = 0x80 :: []) ∧
    termTrue .eq (atEnd .eq 0 0) = false ∧ termTrue .eq (atEnd .eq 1 0) = true ∧ 1 < (atEnd .ce 0 2).cntr.toNat ∧
    (atEnd .ce 0 1).cntr.toNat = 1 ∧ (atEnd .ce 0 1).cntrStack = [] ∧
    ({ atEnd .ce 0 1 with cntrStack := [9] }).cntrStack = 9 :: [] ∧ atLoopEnd at100 = false :=
  ⟨fun _ _ _ => ⟨rfl, rfl, rfl⟩, by decide⟩

/-- Of CountedLoopRunsCntrTimes: one pass, with and without a saved count, and the most a counter can hold. -/
theorem test_witness_countedLoop :
    (let s := { atEnd .ce 0 1 with pcStack := [0x100] }
     s.loopStack = [⟨s.pc, .ce⟩] ∧ s.pcStack = [s.pc] ∧ s.pcPopPending = false ∧ s.cntrStack = [] ∧
       s.cntr.toNat = 0 + 1) ∧
    (let s := { atEnd .ce 0 1 with pcStack := [0x100], cntrStack := [7] }
     s.cntrStack = 7 :: [] ∧ s.cntr.toNat = 0 + 1) ∧
    (let s := { atEnd .ce 0 0x3FFF with pcStack := [0x100] }
     s.loopStack = [⟨s.pc, .ce⟩] ∧ s.pcStack = [s.pc] ∧ s.cntr.toNat = 16382 + 1) := by decide

/-- Of SequencerRefusals: the end of a CE loop, with a count and without, two loops that end together, no count away
from a loop's end, no entry on the PC stack, and a pending pop; with instructions of the kinds it names. -/
theorem test_witness_refusals :
    (atLoopEnd (atEnd .ce 0 1) = true ∧ (atEnd .ce 0 1).pcPopPending = false ∧ endsOnCe (atEnd .ce 0 1) = true) ∧
    (endsOnCe (atEnd .ce 0 0) = true ∧ (atEnd .ce 0 0).cntr = 0) ∧
    (let s := { atEnd .eq 1 0 with loopStack := [⟨0x100, .eq⟩, ⟨0x100, .ne⟩] }
     atLoopEnd s = true ∧ loopDone s = true ∧ nestedEnd s = true ∧ endsOnCe s = false) ∧
    (let s := { atEnd .eq 0 0 with pcStack := [] }
     atLoopEnd s = true ∧ endsOnCe s = false ∧ nestedEnd s = false ∧ s.pcPopPending = false) ∧
    (condOf (.rts .notCe) = some .notCe ∧ condOf (.addXY .result .ax0 .ay0 .notCe) = some .notCe ∧ at100.cntr = 0 ∧
      atLoopEnd at100 = false ∧ at100.pcPopPending = false) ∧
    (endsAnyLoop (.addXY .result .ax0 .ay0 .eq) = true ∧ endsAnyLoop (.regMove .ifc .sstat) = true ∧
      ¬ twoWriters (.addXY .result .ax0 .ay0 .eq) ∧ ¬ twoWriters (.regMove .ifc .sstat)) ∧
    (CanTest .ne (atEnd .ce 0 1) ∧ condTrue .ne (atEnd .ce 0 1) = true) ∧
    (let s := { atEnd .eq 0 0 with pcPopPending := true }
     s.pcPopPending = true ∧ atLoopEnd s = true) := by
  and_intros <;> first | decide | (unfold CanTest; decide) | exact id

/-- Of StackControlPushesAndPops: every clause at once, a status stack one short of full, and full or empty stacks. -/
theorem test_witness_stackControl :
    (let s := { at100 with pcStack := [1], loopStack := [⟨0x200, .ce⟩], cntrStack := [2],
                           statusStack := List.replicate 3 ⟨0, 0, 0⟩ }
     CanAdvance s ∧ s.pcPopPending = false ∧ s.pcStack ≠ [] ∧ s.loopStack ≠ [] ∧ s.cntrStack ≠ [] ∧
       atLoopEnd s = false ∧ s.statusStack.length < s.cfg.statusStackDepth ∧ s.statusStack ≠ []) ∧
    (let s := { at100 with statusStack := List.replicate 4 ⟨0, 0, 0⟩ }
     atLoopEnd s = false ∧ s.cfg.statusStackDepth ≤ s.statusStack.length) ∧
    at100.statusStack = [] ∧ at100.pcStack = [] ∧ at100.loopStack = [] ∧ at100.cntrStack = [] := by
  and_intros <;> first | decide | (unfold CanAdvance; decide)

/-- Of TopOfPcStackMoves and NopOnlyAdvances. -/
theorem test_witness_top :
    (let s := { at100 with pcStack := [0x41] }
     atLoopEnd s = false ∧ s.pcPopPending = false ∧ s.pcStack = 0x41 :: [] ∧ CanWrite (.reg (.i 7)) s ∧
       s.pcStack.length < 16) ∧
    (let s := { at100 with pcStack := List.replicate 16 0 }
     atLoopEnd s = false ∧ 16 ≤ s.pcStack.length) ∧
    (0x00FFFF : PWord).toNat < 65536 ∧ (0x00FFFF : PWord) ≠ 0 := by
  and_intros <;> decide

/-- Of TwoWritersAreIndeterminate: each kind of clause. -/
theorem test_witness_twoWriters :
    twoWriters (.compDmRead .one .result (.alu .add .ax0 .ay0) .ar 0 0) ∧
    twoWriters (.compMove .result (some (.mac .mul .ss .mx0 .my0)) .mr2 .ax0) ∧
    twoWriters (.shiftMove .expLo .si .se .ax0) ∧ twoWriters (.shiftPmRead .normLo .si .sr0 0 0) := by
  simp [twoWriters, collides, shiftCollides]

/-- Of EnvironmentRaisesLatches and InterruptEntrySavesAndVectors: a request, and the eligible source with the
smallest priority, with room on the stacks, with a full stack, and with a pending pop. -/
theorem test_witness_interrupts :
    ({ waiting with irqInputs := [2] }).irqInputs = 2 :: [] ∧
    (∃ q, Eligible (environmentStep waiting) q ∧
      ∀ r, Eligible (environmentStep waiting) r → r ≠ q → q.priority < r.priority) ∧
    (environmentStep waiting).pcPopPending = false ∧ (environmentStep waiting).pcStack.length < 16 ∧
    (environmentStep waiting).statusStack.length < (environmentStep waiting).cfg.statusStackDepth ∧
    16 ≤ (environmentStep { waiting with pcStack := List.replicate 16 0 }).pcStack.length ∧
    (environmentStep { waiting with statusStack := List.replicate 4 ⟨0, 0, 0⟩ }).statusStack.length = 4 ∧
    (environmentStep { waiting with pcPopPending := true }).pcPopPending = true := by
  refine ⟨rfl, ⟨_, ⟨.head _, by decide, by decide, by decide⟩, ?_⟩, by decide⟩
  rintro r ⟨hr, -⟩ hne
  rcases hr with _ | ⟨_, hr⟩
  · exact absurd rfl hne
  · rcases hr with _ | ⟨_, hr⟩
    · decide
    · cases hr

/-- Of InterruptThenReturnRestores. -/
theorem test_witness_rti :
    waiting.pcPopPending = false ∧ (∀ e ∈ waiting.loopStack.head?, e.addr ≠ 0x04) ∧
    ∃ t, takeInterrupt ⟨"IRQ2", 0x04, 5, 0, 0, .keep 0x1F, true, true, none, none, false⟩ waiting = .ok t :=
  ⟨rfl, by decide, _, rfl⟩

/-- Of StepRunsTheDecodedInstruction: no source, a word that is an instruction, one that is none, a dirty address, an
idle core, a pending pop. -/
theorem test_witness_step :
    let s := { at100 with pm := Memory.writePm [] 0x100 0, pcStack := [5], pcPopPending := true }
    (∀ q, ¬ Eligible (environmentStep s) q) ∧ (environmentStep s).idle = false ∧ Fetches (environmentStep s) 0 s ∧
    decode (environmentStep s).cfg 0 = some .nop ∧ (environmentStep s).pcPopPending = true ∧
    (∃ t, exec .nop (environmentStep s) = .next t ∧ t.pcStack = 5 :: []) ∧
    (∃ t, exec .nop { s with pcStack := [] } = .next t ∧ t.pcStack = []) ∧
    (∃ t, Fetches { at100 with pm := Memory.writePm [] 0x100 1 } 1 t) ∧ decode std 1 = none ∧
    (0x100 : Addr).toNat ∈ ({ at100 with pmDirty := [0x100] }).pmDirty := by
  refine ⟨?_, rfl, ⟨by decide, by decide, rfl⟩, by decide, rfl, ⟨_, rfl, rfl⟩, ⟨_, rfl, rfl⟩,
    ⟨_, by decide, by decide, rfl⟩, by decide, by decide⟩
  rintro q ⟨hq, -⟩
  cases hq

/-- Of StepRunsTheDecodedInstruction: a pc with nothing behind it, one whose word nothing has written, and a device. -/
theorem test_witness_fetch :
    (let s := { at100 with cfg := mapped, pc := 0x3FFF }
     s.idle = false ∧ s.pc.toNat ∉ s.pmDirty ∧ backing s.cfg.pmMap s.pc.toNat = none) ∧
    (backing at100.cfg.pmMap at100.pc.toNat = some .ram ∧ Memory.readPm at100.pm at100.pc = none) ∧
    (∃ w t, Fetches { at100 with cfg := mapped, pc := 0x3000 } w t) :=
  ⟨by decide, by decide, _, _, by decide, rfl, rfl⟩

/-- Of EveryStepKeepsInv and OverflowBitsAreSticky: a step between two states, the first with an overflow bit. -/
theorem test_witness_inv :
    let s := { at100 with pm := Memory.writePm [] 0x100 0, pso := true }
    StateInv s ∧ (∃ t, step s = .next t) ∧ s.pso = true := by
  refine ⟨?_, ⟨_, rfl⟩, rfl⟩
  refine ⟨by decide, by decide, by decide, by decide, by decide, by decide, by decide, ?_, ?_, ?_, by decide,
    by decide⟩
  · exact fun k _ => BitVec.getLsbD_zero
  · exact fun k _ => BitVec.getLsbD_zero
  · rintro e ⟨⟩

/-- Of FlagsHaveTheirWriters, OtherBankIsUntouched and DecodeReadsBackEncode: both banks selected in turn. -/
theorem test_witness_flags :
    (∃ t, exec (.mulSS .result .mx0 .my0 .always) at100 = .next t) ∧
    (∃ t, exec (.mulSS .result .mx0 .my0 .always) { at100 with mstat := 1 } = .next t) ∧
    loadsAstat (.mulSS .result .mx0 .my0 .always) = false ∧ setsAs (.mulSS .result .mx0 .my0 .always) = false ∧
    wellFormed std (.mulSS .result .mx0 .my0 .always) = true :=
  ⟨⟨_, rfl⟩, ⟨_, rfl⟩, by decide⟩

/-- Of ReservedWordsAreRefused: a word of each kind it names, and a reserved word of each type that has one. -/
theorem test_witness_reserved :
    (0x08FFFF : PWord).extractLsb' 16 8 = 0x08 ∧ (0x24001E : PWord).extractLsb' 19 5 = 0b00100 ∧
    (0x24001E : PWord).extractLsb' 13 5 = 0 ∧ (0x24001E : PWord).extractLsb' 0 4 = 14 ∧ decode std 0 = some .nop := by
  decide

/-- The statement's classes hold of reserved words of types 7, 9, 15 to 21, 23 to 26, 28, 29 and 31, and of none of
their defined neighbours. -/
theorem test_isReserved :
    ([0x300005, 0x22602F, 0x0F4000, 0x0E0010, 0x0D0C20, 0x0C0001, 0x0B0020, 0x0A0020, 0x090020, 0x070001, 0x060000,
      0x050001, 0x040041, 0x020040, 0x018000, 0x028001].map fun w => isReserved bare w) = List.replicate 16 true ∧
    ([0x340005, 0x22600F, 0x0F0000, 0x0E0000, 0x0D0C02, 0x0C0000, 0x0B0010, 0x0A0010, 0x090010, 0x071000, 0x060800,
      0x050000, 0x040010, 0x020010, 0x028000].map fun w => isReserved bare w) = List.replicate 15 false := by decide

end Sys2Proof.Tests
end

section
/-!
What a step does to the parameters of the part (R5) and to the sticky overflow bits of SSTAT (R45): a relation between
two states that every shared operation, every effect, `exec` and `step` keep.
-/

namespace Sys2Proof.Machine

/-! ## The relation -/

/-- From `s` to `t` the parameters stay and no overflow bit is cleared (R5, R45). -/
structure KeepsOverflow (s t : State) : Prop where
  cfg : t.cfg = s.cfg
  pso : s.pso = true → t.pso = true
  cso : s.cso = true → t.cso = true
  sso : s.sso = true → t.sso = true
  lso : s.lso = true → t.lso = true

/-- Most updates do not name any of the five fields: there the equation holds by `rfl`. -/
theorem KeepsOverflow.of_eq {s t : State}
    (h : (t.cfg, t.pso, t.cso, t.sso, t.lso) = (s.cfg, s.pso, s.cso, s.sso, s.lso)) : KeepsOverflow s t := by
  simp only [Prod.mk.injEq] at h
  obtain ⟨hcfg, hpso, hcso, hsso, hlso⟩ := h
  exact ⟨hcfg, hpso.trans, hcso.trans, hsso.trans, hlso.trans⟩

theorem KeepsOverflow.refl (s : State) : KeepsOverflow s s := .of_eq rfl

theorem KeepsOverflow.trans {s t u : State} (h : KeepsOverflow s t) (k : KeepsOverflow t u) : KeepsOverflow s u :=
  ⟨k.cfg.trans h.cfg, k.pso ∘ h.pso, k.cso ∘ h.cso, k.sso ∘ h.sso, k.lso ∘ h.lso⟩

theorem SameOutside.keepsOverflow {s t : State} (h : SameOutside s t) : KeepsOverflow s t :=
  .of_eq (by simp only [h.cfg, h.pso, h.cso, h.sso, h.lso])

/-- A state change that keeps the overflow bits. -/
def UpdateKeeps (f : State → State) : Prop := ∀ s, KeepsOverflow s (f s)

/-- An effect that keeps the overflow bits whenever it completes. -/
def EffectKeeps (f : State → Except Fault State) : Prop := ∀ s t, f s = .ok t → KeepsOverflow s t

/-- A read or a test that keeps the overflow bits whenever it answers. -/
def ReadKeeps {α : Type} (f : State → Except Fault (α × State)) : Prop :=
  ∀ s a t, f s = .ok (a, t) → KeepsOverflow s t

/-- An outcome of a step from `s` that keeps the overflow bits if it is a next state. -/
def OutcomeKeeps (s : State) (o : Out) : Prop := ∀ t, o = .next t → KeepsOverflow s t

theorem OutcomeKeeps.of_next {s t : State} (h : KeepsOverflow s t) : OutcomeKeeps s (.next t) := by
  intro u hu
  cases hu
  exact h

theorem OutcomeKeeps.of_fault (s : State) (f : Fault) : OutcomeKeeps s (.fault f) := by
  intro t h
  cases h

theorem OutcomeKeeps.of_refused (s : State) (r : Refusal) : OutcomeKeeps s (.refused r) := by
  intro t h
  cases h

theorem OutcomeKeeps.trans {s t : State} {o : Out} (h : KeepsOverflow s t) (k : OutcomeKeeps t o) : OutcomeKeeps s o :=
  fun u hu => h.trans (k u hu)

theorem UpdateKeeps.effect {f : State → State} (h : UpdateKeeps f) : EffectKeeps fun s => .ok (f s) := by
  rintro s t ⟨⟩
  exact h s

theorem EffectKeeps.outcome {f : State → Except Fault State} (h : EffectKeeps f) (s : State) :
    OutcomeKeeps s (toOutcome (f s)) :=
  fun t ht => h s t ((toOutcome_next _ _).1 ht)

/-! ## State operations -/

theorem ceTick_keeps : UpdateKeeps ceTick :=
  fun s => .of_eq (by simp only [ceTick_cfg, ceTick_pso, ceTick_cso, ceTick_sso, ceTick_lso])

theorem tested_keeps (c : Cond) : UpdateKeeps (tested c) := by
  intro s
  rcases tested_cases c s with h | ⟨-, h⟩ <;> rw [h]
  · exact .refl s
  · exact ceTick_keeps s

theorem writeDreg_keeps (d : Dreg) (v : Word) : UpdateKeeps (writeDreg d v) := fun _ => .of_eq rfl

theorem loadFromPm_keeps (d : Dreg) (w : PWord) : UpdateKeeps (loadFromPm d w) := fun _ => .of_eq rfl

theorem setI_keeps (g : Dag) (i : Fin 4) (a : Addr) : UpdateKeeps (setI g i a) := fun _ => .of_eq rfl

/-! ## Stacks -/

theorem pushPc_keeps (a : Addr) : EffectKeeps (pushPc a) := by
  intro s t h
  obtain ⟨-, rfl⟩ := pushPc_inv a s t h
  exact .of_eq rfl

theorem popPc_keeps : ReadKeeps popPc := by
  intro s a t h
  obtain ⟨-, rfl⟩ := popPc_inv s a t h
  exact .of_eq rfl

theorem popLoop_keeps : EffectKeeps popLoop := by
  intro s t h
  obtain ⟨-, rfl⟩ := popLoop_inv s t h
  exact .of_eq rfl

theorem pushSts_keeps : EffectKeeps pushSts := by
  intro s t h
  obtain ⟨-, rfl⟩ := pushSts_inv s t h
  exact .of_eq rfl

theorem popSts_keeps : EffectKeeps popSts := by
  intro s t h
  obtain ⟨e, rest, -, rfl⟩ := popSts_inv s t h
  exact .of_eq rfl

theorem popCntr_keeps : EffectKeeps popCntr := by
  intro s t h
  obtain ⟨c, rest, -, rfl⟩ := popCntr_inv s t h
  exact .of_eq rfl

/-- A counter stack overflow is a fault, so a write to CNTR that completes sets no bit either (R318, R454). -/
theorem writeDst_keeps (d : DstReg) (v : Word) : EffectKeeps (writeDst d v) :=
  fun s t h => (writeDst_same d v s t h).keepsOverflow

theorem writeReg_keeps (r : Reg) (v : Word) : EffectKeeps (writeReg r v) :=
  fun s t h => (writeReg_same r v s t h).keepsOverflow

/-! ## Reads and memory accesses -/

theorem readReg_keeps (r : Reg) : ReadKeeps (readReg r) := by
  intro s v t h
  obtain ⟨-, rfl | ⟨p, -, rfl⟩⟩ := readReg_inv r s v t h
  · exact .refl _
  · exact .of_eq rfl

theorem readSrc_keeps (r : SrcReg) : ReadKeeps (readSrc r) := by
  intro s v t h
  obtain ⟨-, rfl | ⟨p, -, rfl⟩⟩ := readSrc_inv r s v t h
  · exact .refl _
  · exact .of_eq rfl

theorem memReadDm_keeps (a : Addr) : ReadKeeps (memReadDm a) := by
  intro s v t h
  obtain ⟨rfl, -⟩ | ⟨-, rfl⟩ := memReadDm_inv a s v t h
  · exact .refl _
  · exact .of_eq rfl

theorem memReadPm_keeps (a : Addr) : ReadKeeps (memReadPm a) := by
  intro s v t h
  obtain ⟨rfl, -⟩ | ⟨-, rfl⟩ := memReadPm_inv a s v t h
  · exact .refl _
  · exact .of_eq rfl

theorem memWriteDm_keeps (a : Addr) (v : Word) : EffectKeeps (memWriteDm a v) := by
  intro s t h
  obtain rfl | rfl := memWriteDm_inv a v s t h <;> exact .of_eq rfl

theorem memWritePm_keeps (a : Addr) (v : PWord) : EffectKeeps (memWritePm a v) := by
  intro s t h
  obtain rfl | rfl := memWritePm_inv a v s t h <;> exact .of_eq rfl

theorem fetch_keeps : ReadKeeps fetch := by
  intro s w t h
  obtain ⟨-, h⟩ := fetch_inv s w t h
  exact memReadPm_keeps _ s w t h

theorem dmFetch_keeps {g : Dag} {i m : Fin 4} {s : State} {v : Word} {t : State} {a : Addr}
    (h : dmFetch g i m s = .ok (v, t, a)) : KeepsOverflow s t :=
  memReadDm_keeps _ s v t (dmFetch_inv g i m s v t a h).2

theorem pmFetch_keeps {i m : Fin 4} {s : State} {w : PWord} {t : State} {a : Addr}
    (h : pmFetch i m s = .ok (w, t, a)) : KeepsOverflow s t :=
  memReadPm_keeps _ s w t (pmFetch_inv i m s w t a h).2

theorem dmStore_keeps (g : Dag) (v : Word) (i m : Fin 4) : EffectKeeps (dmStore g v i m) := by
  intro s u h
  obtain ⟨a, t, -, hw, rfl⟩ := dmStore_inv g v i m s u h
  exact (memWriteDm_keeps _ v s t hw).trans (setI_keeps g i a t)

theorem pmStore_keeps (v : Word) (i m : Fin 4) : EffectKeeps (pmStore v i m) := by
  intro s u h
  obtain ⟨a, t, -, hw, rfl⟩ := pmStore_inv v i m s u h
  exact (memWritePm_keeps _ _ s t hw).trans (setI_keeps .two i a t)

/-! ## Conditions, sequencing and transfers -/

theorem evalCond_keeps (c : Cond) : ReadKeeps (evalCond c) := by
  intro s b t h
  obtain ⟨-, rfl, -⟩ := evalCond_inv c s b t h
  exact tested_keeps c s

theorem testFlagIn_keeps (on : Bool) : ReadKeeps (testFlagIn on) := by
  rintro s b t ⟨⟩
  exact .of_eq rfl

theorem ifCond_keeps (c : Cond) {f : State → Except Fault State} (hf : EffectKeeps f) :
    EffectKeeps (ifCond c f) := by
  intro s u h
  obtain ⟨-, h⟩ | ⟨-, rfl⟩ := ifCond_inv c f s u h
  · exact (tested_keeps c s).trans (hf _ u h)
  · exact tested_keeps c s

/-- The tick of CE that sequencing makes at the end of a CE loop (R372). -/
theorem optionalTick_keeps (ce : Bool) : UpdateKeeps fun t => if ce then ceTick t else t := by
  intro t
  cases ce
  · exact .refl t
  · exact ceTick_keeps t

theorem nextPc_keeps (q : Seq) : EffectKeeps (nextPc q) := by
  intro t u h
  obtain ⟨-, rfl⟩ | ⟨ce, a, rest, -, -, rfl⟩ | ⟨ce, a, rest, l, ls, -, -, -, rfl⟩ := sequence_inv q t u h
  · exact .of_eq rfl
  · exact (optionalTick_keeps ce t).trans (.of_eq rfl)
  · exact (optionalTick_keeps ce t).trans (.of_eq rfl)

theorem runPlain_keeps (g : Guard) {eff : State → Except Fault State} (he : EffectKeeps eff) (s : State) :
    OutcomeKeeps s (runPlain g eff s) := by
  refine EffectKeeps.outcome (fun s u h => ?_) s
  obtain ⟨q, t, -, -, ht, hu⟩ := runSeq_inv g eff s u h
  exact (he s t ht).trans (nextPc_keeps q t u hu)

theorem runBranch_keeps (g : Guard) {test : State → Except Fault (Bool × State)}
    {take : State → Except Fault State} (ht : ReadKeeps test) (hk : EffectKeeps take) (s : State) :
    OutcomeKeeps s (runBranch g test take s) := by
  refine EffectKeeps.outcome (fun s u h => ?_) s
  obtain ⟨-, b, t, htest, ⟨-, -, hu⟩ | ⟨-, q, -, hu⟩⟩ := runTransfer_inv g test take s u h
  · exact (ht s b t htest).trans (hk t u hu)
  · exact (ht s b t htest).trans (nextPc_keeps q t u hu)

/-- An instruction whose own effect always completes. -/
theorem runUpdate_keeps (g : Guard) {f : State → State} (hf : UpdateKeeps f) (s : State) :
    OutcomeKeeps s (runPlain g (fun t => .ok (f t)) s) :=
  runPlain_keeps g hf.effect s

/-- The same under a condition. -/
theorem runCondUpdate_keeps (c : Cond) {f : State → State} (hf : UpdateKeeps f) (s : State) :
    OutcomeKeeps s (runPlain (.cond c) (ifCond c fun t => .ok (f t)) s) :=
  runPlain_keeps _ (ifCond_keeps c hf.effect) s

/-! ## The units -/

theorem commitAlu_keeps (z : Dest) (o : AluOut) : UpdateKeeps (commitAlu z o) :=
  fun s => .of_eq (by simp only [commitAlu_cfg, commitAlu_pso, commitAlu_cso, commitAlu_sso, commitAlu_lso])

theorem commitMac_keeps (z : Dest) (r : Acc) (mv : Bool) : UpdateKeeps (commitMac z r mv) :=
  fun s => .of_eq (by simp only [commitMac_cfg, commitMac_pso, commitMac_cso, commitMac_sso, commitMac_lso])

theorem passKonst_keeps (f : AluFn) (z : Dest) (y : Word) : UpdateKeeps (passKonst f z y) := by
  intro s
  cases h : passDefines (alu f 0 y (acOf s.astat)).r
  · rw [passKonst_other f z y s h]
    cases z <;> exact .of_eq rfl
  · rw [passKonst_defined f z y s h]
    exact commitAlu_keeps z _ s

theorem satMr_keeps : UpdateKeeps satMr := by
  intro s
  unfold satMr
  split
  · exact .of_eq rfl
  · exact .refl s

theorem doExpHix_keeps (x : Word) : UpdateKeeps (doExpHix x) := by
  intro s
  unfold doExpHix
  split <;> exact .of_eq rfl

theorem shiftClause_keeps (f : ShFn) (x : Word) : UpdateKeeps (shiftClause f x) := by
  intro s
  cases f with
  | expHix => exact doExpHix_keeps x s
  | lshiftHi | lshiftHiOr | lshiftLo | lshiftLoOr | ashiftHi | ashiftHiOr | ashiftLo | ashiftLoOr | normHi | normHiOr
  | normLo | normLoOr | expHi | expLo | expAdj => exact .of_eq rfl

theorem compute_keeps (z : Dest) (k : Calc) (pre : State) : UpdateKeeps (compute z k pre) := by
  cases k with
  | alu f x y => exact commitAlu_keeps z _
  | mac op fmt x y => exact commitMac_keeps z _ _

theorem runAlu_keeps (f : AluFn) (z : Dest) (x y : State → Word) (c : Cond) (s : State) :
    OutcomeKeeps s (runAlu f z x y c s) :=
  runCondUpdate_keeps c (commitAlu_keeps z _) s

theorem runPassKonst_keeps (f : AluFn) (z : Dest) (k : Konst) (c : Cond) (s : State) :
    OutcomeKeeps s (runPassKonst f z k c s) :=
  runCondUpdate_keeps c (passKonst_keeps f z _) s

theorem runMac_keeps (op : MacOp) (fmt : MacFmt) (z : Dest) (x y : State → Word) (c : Cond) (s : State) :
    OutcomeKeeps s (runMac op fmt z x y c s) :=
  runCondUpdate_keeps c (commitMac_keeps z _ _) s

/-! ## Moves -/

theorem moveReg_keeps (d : DstReg) (r : SrcReg) : EffectKeeps (moveReg d r) := by
  intro s u h
  unfold moveReg at h
  split at h
  · cases h
  · next v t ht => exact (readSrc_keeps r s v t ht).trans (writeDst_keeps d v t u h)

theorem loadDirect_keeps (d : DstReg) (a : Addr) : EffectKeeps (loadDirect d a) := by
  intro s u h
  unfold loadDirect at h
  split at h
  · cases h
  · next v t ht => exact (memReadDm_keeps a s v t ht).trans (writeDst_keeps d v t u h)

theorem storeDirect_keeps (a : Addr) (r : SrcReg) : EffectKeeps (storeDirect a r) := by
  intro s u h
  unfold storeDirect at h
  split at h
  · cases h
  · next v t ht => exact (readSrc_keeps r s v t ht).trans (memWriteDm_keeps a v t u h)

/-! ## Moves beside a clause -/

theorem withDmRead_keeps {clause : State → State} (hc : UpdateKeeps clause) (g : Dag) (d : Dreg) (i m : Fin 4) :
    EffectKeeps (withDmRead clause g d i m) := by
  intro s u h
  unfold withDmRead at h
  split at h
  · cases h
  · next v t a ht =>
    cases h
    exact ((dmFetch_keeps ht).trans (hc t)).trans (.of_eq rfl)

theorem withPmRead_keeps {clause : State → State} (hc : UpdateKeeps clause) (d : Dreg) (i m : Fin 4) :
    EffectKeeps (withPmRead clause d i m) := by
  intro s u h
  unfold withPmRead at h
  split at h
  · cases h
  · next w t a ht =>
    cases h
    exact ((pmFetch_keeps ht).trans (hc t)).trans (.of_eq rfl)

/-- An indirect load alone is one beside a clause that does nothing. -/
theorem loadDm_keeps (g : Dag) (d : Dreg) (i m : Fin 4) : EffectKeeps (loadDm g d i m) :=
  withDmRead_keeps .refl g d i m

theorem loadPm_keeps (d : Dreg) (i m : Fin 4) : EffectKeeps (loadPm d i m) :=
  withPmRead_keeps .refl d i m

theorem withDualRead_keeps {clause : State → State} (hc : UpdateKeeps clause) (pd : PdReg) (dd : DdReg)
    (pi pm di dm : Fin 4) : EffectKeeps (withDualRead clause pd dd pi pm di dm) := by
  intro s x h
  unfold withDualRead at h
  split at h
  · cases h
  · split at h
    · cases h
    · next w t ap ht =>
      split at h
      · cases h
      · next v u hu =>
        cases h
        have hread : KeepsOverflow s u := (pmFetch_keeps ht).trans (memReadDm_keeps _ t v u hu)
        exact (hread.trans (hc u)).trans (.of_eq rfl)

theorem afterStore_keeps {clause : State → State} {store : State → Except Fault State} (hc : UpdateKeeps clause)
    (hs : EffectKeeps store) : EffectKeeps (afterStore clause store) := by
  intro s u h
  unfold afterStore at h
  split at h
  · cases h
  · next t ht =>
    cases h
    exact (hs s t ht).trans (hc t)

theorem computeMove_keeps (z : Dest) (k : Option Calc) (d r : Dreg) : UpdateKeeps (computeMove z k d r) := by
  intro s
  cases k with
  | none => exact writeDreg_keeps d _ s
  | some k => exact (compute_keeps z k s s).trans (writeDreg_keeps d _ _)

theorem unlessTwoWriters_keeps (bad : Bool) {eff : State → Except Fault State} (he : EffectKeeps eff) (s : State) :
    OutcomeKeeps s (unlessTwoWriters bad eff s) := by
  unfold unlessTwoWriters
  split
  · exact .of_fault s _
  · exact runPlain_keeps .plain he s

/-! ## Program flow and misc -/

theorem takeJump_keeps (a : Addr) : EffectKeeps (takeJump a) := UpdateKeeps.effect fun _ => .of_eq rfl

theorem takeCall_keeps (a : Addr) : EffectKeeps (takeCall a) := by
  intro s u h
  unfold takeCall at h
  split at h
  · cases h
  · next t ht =>
    cases h
    exact (pushPc_keeps _ s t ht).trans (.of_eq rfl)

theorem takeReturn_keeps : EffectKeeps takeReturn := by
  intro s u h
  unfold takeReturn at h
  split at h
  · cases h
  · next a t ht =>
    cases h
    exact (popPc_keeps s a t ht).trans (.of_eq rfl)

theorem returnFromInterrupt_keeps : EffectKeeps returnFromInterrupt := by
  intro s t h
  obtain ⟨a, rest, e, sts, -, -, rfl⟩ := returnFromInterrupt_inv s t h
  exact .of_eq rfl

theorem driveFl2_keeps (op : PinOp) : UpdateKeeps (driveFl2 op) := by
  intro s
  cases op <;> exact .of_eq rfl

theorem driveFl1_keeps (op : PinOp) : UpdateKeeps (driveFl1 op) := by
  intro s
  cases op <;> exact .of_eq rfl

theorem driveFl0_keeps (op : PinOp) : UpdateKeeps (driveFl0 op) := by
  intro s
  cases op <;> exact .of_eq rfl

theorem driveFlagOut_keeps (op : PinOp) : UpdateKeeps (driveFlagOut op) := by
  intro s
  cases op <;> exact .of_eq rfl

theorem drivePins_keeps (f2 f1 f0 fo : PinOp) : UpdateKeeps (drivePins f2 f1 f0 fo) := fun s =>
  (((driveFl2_keeps f2 s).trans (driveFl1_keeps f1 _)).trans (driveFl0_keeps f0 _)).trans (driveFlagOut_keeps fo _)

/-- DO UNTIL is the one effect that writes overflow bits and completes: it adds to them (R370). -/
theorem startLoop_keeps (a : Addr) (t : Term) : UpdateKeeps (startLoop a t) := by
  intro s
  unfold startLoop
  dsimp only
  split
  · exact ⟨rfl, fun h => by simp [h], id, id, fun h => by simp [h]⟩
  · exact .of_eq rfl

theorem controlStatus_keeps (sp : StsOp) : EffectKeeps (controlStatus sp) := by
  cases sp with
  | keep => exact UpdateKeeps.effect .refl
  | push => exact pushSts_keeps
  | pop => exact popSts_keeps

theorem controlPops_keeps (pp lp cp : Bool) : EffectKeeps (controlPops pp lp cp) := by
  intro s u h
  unfold controlPops at h
  split at h
  · cases h
  · next s1 h1 =>
    have hcntr : KeepsOverflow s s1 := by
      cases cp
      · cases h1; exact .refl _
      · exact popCntr_keeps s s1 h1
    split at h
    · cases h
    · next a s2 h2 =>
      have hpc : KeepsOverflow s1 s2 := by
        cases pp
        · cases h2; exact .refl _
        · exact popPc_keeps s1 a s2 h2
      have hloop : KeepsOverflow s2 u := by
        cases lp
        · cases h; exact .refl _
        · exact popLoop_keeps s2 u h
      exact (hcntr.trans hpc).trans hloop

theorem controlStacks_keeps (pp lp cp : Bool) (sp : StsOp) : EffectKeeps (controlStacks pp lp cp sp) := by
  intro s u h
  unfold controlStacks at h
  split at h
  · cases h
  · next t ht => exact (controlStatus_keeps sp s t ht).trans (controlPops_keeps pp lp cp t u h)

theorem readTopPc_keeps (r : Reg) : EffectKeeps (readTopPc r) := by
  intro s u h
  unfold readTopPc at h
  split at h
  · cases h
  · split at h
    · cases h
    · next t ht =>
      cases h
      exact (writeReg_keeps r _ s t ht).trans (.of_eq rfl)

theorem writeTopPc_keeps (r : Reg) : EffectKeeps (writeTopPc r) := by
  intro s u h
  unfold writeTopPc at h
  split at h
  · cases h
  · next v t ht => exact (readReg_keeps r s v t ht).trans (pushPc_keeps _ t u h)

theorem modifyI_keeps (g : Dag) (i m : Fin 4) : EffectKeeps (modifyI g i m) := by
  intro s u h
  unfold modifyI at h
  split at h
  · cases h
  · next a ha =>
    cases h
    exact setI_keeps g i a s

/-! ## Every instruction -/

theorem exec_keeps (i : Instr) (s : State) : OutcomeKeeps s (exec i s) := by
  cases i with
  | addXY | addXK | addcXY | addcXK | subXY | subXK | subbXY | subbXK | rsubXY | rsubXK | rsubbXY | rsubbXK | andXY
  | andXK | orXY | orXK | xorXY | xorXK | tstBit | setBit | clrBit | tglBit | passY | passZero | passX | passOne
  | passMinusOne | negX | negY | notX | notY | absX | incY | decY => apply runAlu_keeps
  | passK | passKInc | passKDec => apply runPassKonst_keeps
  | divs | divq | noneAlu =>
    apply runUpdate_keeps
    exact fun _ => .of_eq rfl
  | mulSS | mulSU | mulUS | mulUU | mulRND | macSS | macSU | macUS | macUU | macRND | msubSS | msubSU | msubUS | msubUU
  | msubRND | sqSS | sqUU | sqRND | macSqSS | macSqUU | macSqRND | msubSqSS | msubSqUU | msubSqRND =>
    apply runMac_keeps
  | clearMR | transferMR | transferMRRnd => exact runCondUpdate_keeps _ (commitMac_keeps _ _ _) s
  | satMR => exact runUpdate_keeps .plain satMr_keeps s
  | lshiftHi | lshiftHiOr | lshiftLo | lshiftLoOr | ashiftHi | ashiftHiOr | ashiftLo | ashiftLoOr | normHi | normHiOr
  | normLo | normLoOr | expHi | expLo | expAdj =>
    apply runCondUpdate_keeps
    exact fun _ => .of_eq rfl
  | expHix =>
    apply runCondUpdate_keeps
    exact fun t => doExpHix_keeps _ t
  | lshiftImmHi | lshiftImmHiOr | lshiftImmLo | lshiftImmLoOr | ashiftImmHi | ashiftImmHiOr | ashiftImmLo
  | ashiftImmLoOr =>
    apply runUpdate_keeps
    exact fun _ => .of_eq rfl
  | regMove d r => exact runPlain_keeps _ (moveReg_keeps d r) s
  | loadDreg d v => exact runUpdate_keeps .plain (writeDreg_keeps d v) s
  | loadReg d v => exact runPlain_keeps _ (writeDst_keeps d _) s
  | dmReadDirect d a => exact runPlain_keeps _ (loadDirect_keeps d a) s
  | dmWriteDirect a r => exact runPlain_keeps _ (storeDirect_keeps a r) s
  | dmRead g d p m => exact runPlain_keeps _ (loadDm_keeps g d p m) s
  | dmWrite g r p m => exact runPlain_keeps _ (fun t => dmStore_keeps g _ p m t) s
  | dmWriteImm g v p m => exact runPlain_keeps _ (dmStore_keeps g v p m) s
  | pmRead d p m => exact runPlain_keeps _ (loadPm_keeps d p m) s
  | pmWrite r p m => exact runPlain_keeps _ (fun t => pmStore_keeps _ p m t) s
  | ioRead | ioWrite =>
    apply runUpdate_keeps
    exact fun _ => .of_eq rfl
  | jump | jumpInd => exact runBranch_keeps _ (evalCond_keeps _) (takeJump_keeps _) s
  | call | callInd => exact runBranch_keeps _ (evalCond_keeps _) (takeCall_keeps _) s
  | jumpFlagIn on a => exact runBranch_keeps _ (testFlagIn_keeps on) (takeJump_keeps a) s
  | callFlagIn on a => exact runBranch_keeps _ (testFlagIn_keeps on) (takeCall_keeps a) s
  | flagOut f2 f1 f0 fo c => exact runCondUpdate_keeps c (drivePins_keeps f2 f1 f0 fo) s
  | rts c => exact runBranch_keeps _ (evalCond_keeps c) takeReturn_keeps s
  | rti c => exact runBranch_keeps _ (evalCond_keeps c) returnFromInterrupt_keeps s
  | doUntil a t => exact runUpdate_keeps _ (startLoop_keeps a t) s
  | idle | idleN | modeControl | nop | nopType9 | enaInts | disInts =>
    apply runUpdate_keeps
    exact fun _ => .of_eq rfl
  | stackControl pp lp cp sp => exact runPlain_keeps _ (controlStacks_keeps pp lp cp sp) s
  | regFromTop d => exact runPlain_keeps _ (readTopPc_keeps d) s
  | topFromReg r => exact runPlain_keeps _ (writeTopPc_keeps r) s
  | modify g p m => exact runPlain_keeps _ (modifyI_keeps g p m) s
  | compDmRead g z k d p m =>
    exact unlessTwoWriters_keeps _ (fun t => withDmRead_keeps (compute_keeps z k t) g d p m t) s
  | compPmRead z k d p m => exact unlessTwoWriters_keeps _ (fun t => withPmRead_keeps (compute_keeps z k t) d p m t) s
  | shiftDmRead g f x d p m =>
    exact unlessTwoWriters_keeps _ (fun t => withDmRead_keeps (shiftClause_keeps f _) g d p m t) s
  | shiftPmRead f x d p m =>
    exact unlessTwoWriters_keeps _ (fun t => withPmRead_keeps (shiftClause_keeps f _) d p m t) s
  | compMove z k d r => exact unlessTwoWriters_keeps _ (computeMove_keeps z k d r).effect s
  | shiftMove f x d r =>
    exact unlessTwoWriters_keeps _
      (UpdateKeeps.effect fun t => (shiftClause_keeps f _ t).trans (writeDreg_keeps d _ _)) s
  | compDmWrite g z k r p m =>
    exact runPlain_keeps _ (fun t => afterStore_keeps (compute_keeps z k t) (dmStore_keeps g _ p m) t) s
  | compPmWrite z k r p m =>
    exact runPlain_keeps _ (fun t => afterStore_keeps (compute_keeps z k t) (pmStore_keeps _ p m) t) s
  | shiftDmWrite g f x r p m =>
    exact runPlain_keeps _ (fun t => afterStore_keeps (shiftClause_keeps f _) (dmStore_keeps g _ p m) t) s
  | shiftPmWrite f x r p m =>
    exact runPlain_keeps _ (fun t => afterStore_keeps (shiftClause_keeps f _) (pmStore_keeps _ p m) t) s
  | dualRead pd dd pi pm di dm => exact runPlain_keeps _ (withDualRead_keeps .refl pd dd pi pm di dm) s
  | compDualRead k pd dd pi pm di dm =>
    exact runPlain_keeps _ (fun t => withDualRead_keeps (compute_keeps .result k t) pd dd pi pm di dm t) s

/-! ## The step -/

theorem environmentStep_keeps : UpdateKeeps environmentStep := by
  intro s
  obtain h | ⟨r, rest, -, h⟩ := environmentStep_cases s <;> rw [h]
  · exact .refl s
  · exact .of_eq rfl

/-- An interrupt entry that finds a stack full is a fault: one that completes sets no bit (R464, R454). -/
theorem takeInterrupt_keeps (q : IrqSource) : EffectKeeps (takeInterrupt q) := by
  intro s t h
  obtain ⟨-, -, rfl⟩ := takeInterrupt_inv q s t h
  exact .of_eq rfl

theorem delayedPop_keeps : EffectKeeps delayedPop := by
  intro s u h
  unfold delayedPop at h
  split at h
  · cases h
  · next a t ht =>
    cases h
    exact (popPc_keeps s a t ht).trans (.of_eq rfl)

theorem finishStep_keeps (p : Bool) {s : State} {o : Out} (h : OutcomeKeeps s o) :
    OutcomeKeeps s (finishStep p o) := by
  unfold finishStep
  split
  · next t =>
    have ht : KeepsOverflow s t := h t rfl
    split
    · exact .trans ht (delayedPop_keeps.outcome t)
    · exact .of_next ht
  · exact .of_fault s _
  · exact .of_refused s _

/-- Each of the step's ways to a next state (R462) starts with the environment's step. -/
theorem step_keeps (s : State) : OutcomeKeeps s (step s) := by
  refine .trans (environmentStep_keeps s) ?_
  dsimp only [step]
  split
  · next q hq =>
    split
    · exact .of_fault _ _
    · exact (takeInterrupt_keeps q).outcome _
  · split
    · exact .of_next (.refl _)
    · split
      · exact .of_fault _ _
      · next w t hf =>
        split
        · exact .of_fault _ _
        · next i hi => exact .trans (fetch_keeps _ w t hf) (finishStep_keeps _ (exec_keeps i t))

/-- Settles O55: `step_keeps`, field by field. -/
theorem overflowBitsAreSticky : Obligations.OverflowBitsAreSticky := by
  unfold Obligations.OverflowBitsAreSticky
  intro s t h
  obtain ⟨hcfg, hpso, hcso, hsso, hlso⟩ := step_keeps s t h
  exact ⟨hcfg, hpso, hcso, hsso, hlso⟩

end Sys2Proof.Machine
end

section
/-!
What an instruction may change. `Touch i` lists the elementary changes the instruction `i` may make to a state: which
flags, whether MSTAT or a register bank, which stacks within their depths, which memory words. `exec_touches` says that a
completed instruction is a chain of them; the invariant (log 4, R32 to R50), the writers of the flags (R38) and the
untouched register bank (R28) are read off the list.
-/

namespace Sys2Proof.Machine

open Sys2Proof.Spec

/-! ## The elementary changes -/

/-- The fields of the state that `t` shares with `s` where only a pin, a pointer, the counter, a latch, an event or the
like differs. -/
structure SameCore (s t : State) : Prop where
  cfg : t.cfg = s.cfg
  prim : t.prim = s.prim
  sec : t.sec = s.sec
  pcStack : t.pcStack = s.pcStack
  loopStack : t.loopStack = s.loopStack
  cntrStack : t.cntrStack = s.cntrStack
  statusStack : t.statusStack = s.statusStack
  astat : t.astat = s.astat
  mstat : t.mstat = s.mstat
  imask : t.imask = s.imask
  icntl : t.icntl = s.icntl
  intsEn : t.intsEn = s.intsEn
  pcPopPending : t.pcPopPending = s.pcPopPending
  pm : t.pm = s.pm
  dm : t.dm = s.dm
  pmDirty : t.pmDirty = s.pmDirty

/-- The instructions that change MSTAT (R41): a move into it, TOPPCSTACK's among them, POP STS, RTI and mode control. -/
def loadsMstat : Instr → Bool
  | .regMove (.reg .mstat) _ | .loadReg (.reg .mstat) _ | .dmReadDirect (.reg .mstat) _ => true
  | .regFromTop .mstat | .stackControl _ _ _ .pop | .rti .. | .modeControl .. => true
  | _ => false

/-- The instruction may write bit `k` of ASTAT (R37, R38). -/
def writesFlag (i : Instr) (k : Nat) : Bool :=
  loadsAstat i || (decide (k < 4) && setsAluFlags i) || (decide (k = 4) && setsAs i) ||
    (decide (k = 5) && setsAq i) || (decide (k = 6) && setsMv i) || (decide (k = 7) && setsSs i)

/-- One elementary change that the instruction `i` may make. No instruction changes both MSTAT and a register bank. -/
inductive Touch (i : Instr) (s : State) : State → Prop where
  | free {t : State} (h : SameCore s t) : Touch i s t
  | bank (f : Bank → Bank) (h : loadsMstat i = false) : Touch i s (s.mapBank f)
  | astat {a : BitVec 8} (h : ∀ k, writesFlag i k = false → a.getLsbD k = s.astat.getLsbD k) :
      Touch i s { s with astat := a }
  | mstat (m : BitVec 7) (h : loadsMstat i = true) : Touch i s { s with mstat := m }
  | imask (v : BitVec 16) : Touch i s { s with imask := keepLow s.cfg.imaskBits v }
  | icntl (v : BitVec 16) : Touch i s { s with icntl := keepLow s.cfg.icntlBits v }
  | intsEn (b : Bool) (h : i = .enaInts ∨ i = .disInts) : Touch i s { s with intsEn := b }
  | pushPc (a : Addr) (h : s.pcStack.length < pcStackDepth) : Touch i s { s with pcStack := a :: s.pcStack }
  | popPc {a : Addr} {rest : List Addr} (h : s.pcStack = a :: rest) : Touch i s { s with pcStack := rest }
  | pushLoop (e : LoopEntry) (h : s.loopStack.length < loopStackDepth) :
      Touch i s { s with loopStack := e :: s.loopStack }
  | popLoop {e : LoopEntry} {rest : List LoopEntry} (h : s.loopStack = e :: rest) :
      Touch i s { s with loopStack := rest }
  | pushCntr (c : Addr) (h : s.cntrStack.length < s.cfg.cntrStackDepth) :
      Touch i s { s with cntrStack := c :: s.cntrStack }
  | popCntr {c : Addr} {rest : List Addr} (h : s.cntrStack = c :: rest) : Touch i s { s with cntrStack := rest }
  | pushSts (h : s.statusStack.length < s.cfg.statusStackDepth) :
      Touch i s { s with statusStack := ⟨s.astat, s.mstat, s.imask⟩ :: s.statusStack }
  | popSts {e : StatusEntry} {rest : List StatusEntry} (h : s.statusStack = e :: rest) :
      Touch i s { s with statusStack := rest, imask := e.imask }
  | storeDm (a : Addr) (v : Word) : Touch i s { s with dm := Memory.writeDm s.dm a v }
  | storePm (a : Addr) (v : PWord) : Touch i s { s with pm := Memory.writePm s.pm a v }
  | markDirty (a : Nat) : Touch i s { s with pmDirty := addToSet s.pmDirty a }
  | popPending {r : Reg} (h : i = .regFromTop r) : Touch i s { s with pcPopPending := true }

/-- A chain of elementary changes of one instruction. -/
def Touches (i : Instr) : State → State → Prop := Relation.ReflTransGen (Touch i)

/-- An update that is a chain of elementary changes. -/
def UpdateTouches (i : Instr) (f : State → State) : Prop := ∀ s, Touches i s (f s)

/-- An effect that is one whenever it completes. -/
def EffectTouches (i : Instr) (f : State → Except Fault State) : Prop := ∀ s t, f s = .ok t → Touches i s t

/-- A read or a test that is one whenever it answers. -/
def ReadTouches (i : Instr) {α : Type} (f : State → Except Fault (α × State)) : Prop :=
  ∀ s a t, f s = .ok (a, t) → Touches i s t

/-- An outcome from `s` that is one if it is a next state. -/
def OutcomeTouches (i : Instr) (s : State) (o : Out) : Prop := ∀ t, o = .next t → Touches i s t

variable {i : Instr}

theorem Touches.refl {s : State} : Touches i s s := Relation.ReflTransGen.refl

theorem Touches.single {s t : State} (h : Touch i s t) : Touches i s t := Relation.ReflTransGen.single h

theorem Touches.trans {s t u : State} (h : Touches i s t) (k : Touches i t u) : Touches i s u :=
  Relation.ReflTransGen.trans h k

/-- What each elementary change keeps, the chain keeps. -/
theorem Touches.keeps {P : State → Prop} (hP : ∀ t u, Touch i t u → P t → P u) {s t : State} (h : Touches i s t)
    (hs : P s) : P t := by
  unfold Touches at h
  induction h with
  | refl => exact hs
  | tail _ hu ih => exact hP _ _ hu ih

theorem Touches.free {s t : State} (h : SameCore s t) : Touches i s t := .single (.free h)

theorem UpdateTouches.effect {f : State → State} (h : UpdateTouches i f) : EffectTouches i fun s => .ok (f s) := by
  rintro s t ⟨⟩
  exact h s

theorem EffectTouches.outcome {f : State → Except Fault State} (h : EffectTouches i f) (s : State) :
    OutcomeTouches i s (toOutcome (f s)) :=
  fun t ht => h s t ((toOutcome_next _ _).1 ht)

/-! ## State operations -/

theorem ceTick_touches : UpdateTouches i ceTick := by
  intro s
  unfold ceTick
  split
  · split
    · next c rest hc => exact .trans (.single (.popCntr hc)) (.free (by constructor <;> rfl))
    · exact .free (by constructor <;> rfl)
  · exact .free (by constructor <;> rfl)

theorem tested_touches (c : Cond) : UpdateTouches i (tested c) := by
  intro s
  rcases tested_cases c s with h | ⟨-, h⟩ <;> rw [h]
  · exact .refl
  · exact ceTick_touches s

theorem setI_touches (g : Dag) (n : Fin 4) (a : Addr) : UpdateTouches i (setI g n a) :=
  fun _ => .free (by constructor <;> rfl)

theorem writeDreg_touches (hb : loadsMstat i = false) (d : Dreg) (v : Word) : UpdateTouches i (writeDreg d v) :=
  fun _ => .single (.bank _ hb)

theorem loadFromPm_touches (hb : loadsMstat i = false) (d : Dreg) (w : PWord) :
    UpdateTouches i (loadFromPm d w) :=
  fun s => (writeDreg_touches hb d _ s).trans (.free (by constructor <;> rfl))

/-! ## Stacks -/

theorem pushPc_touches (a : Addr) : EffectTouches i (pushPc a) := by
  intro s t h
  obtain ⟨hlt, rfl⟩ := pushPc_inv a s t h
  exact .single (.pushPc a hlt)

theorem popPc_touches : ReadTouches i popPc := by
  intro s a t h
  obtain ⟨hp, rfl⟩ := popPc_inv s a t h
  exact .single (.popPc hp)

theorem popLoop_touches : EffectTouches i popLoop := by
  intro s t h
  obtain ⟨hne, rfl⟩ := popLoop_inv s t h
  exact .single (.popLoop (List.cons_head_tail hne).symm)

theorem pushSts_touches : EffectTouches i pushSts := by
  intro s t h
  obtain ⟨hlt, rfl⟩ := pushSts_inv s t h
  exact .single (.pushSts hlt)

/-- An instruction that loads the whole of ASTAT may write each of its bits. -/
theorem loadAstat_touches (ha : loadsAstat i = true) (a : BitVec 8) : UpdateTouches i fun s => { s with astat := a } :=
  fun _ => .single (.astat fun k hk => by simp [writesFlag, ha] at hk)

/-- Popping the status stack also loads the two status registers. -/
theorem popSts_touches (ha : loadsAstat i = true) (hm : loadsMstat i = true) : EffectTouches i popSts := by
  intro s t h
  obtain ⟨e, rest, he, rfl⟩ := popSts_inv s t h
  exact .trans (.trans (.single (.popSts he)) (loadAstat_touches ha e.astat _)) (.single (.mstat e.mstat hm))

theorem popCntr_touches : EffectTouches i popCntr := by
  intro s t h
  obtain ⟨c, rest, hc, rfl⟩ := popCntr_inv s t h
  exact .trans (.single (.popCntr hc)) (.free (by constructor <;> rfl))

theorem writeCntr_touches (v : Addr) : EffectTouches i (writeCntr v) := by
  intro s t h
  obtain ⟨-, hlt, rfl⟩ | ⟨-, rfl⟩ := writeCntr_inv v s t h
  · exact .trans (.single (.pushCntr s.cntr hlt)) (.free (by constructor <;> rfl))
  · exact .free (by constructor <;> rfl)

/-! ## Reads and writes of registers and memory -/

theorem writeReg_touches {r : Reg} (ha : r = .astat → loadsAstat i = true) (hm : loadsMstat i = decide (r = .mstat))
    (v : Word) : EffectTouches i (writeReg r v) := by
  intro s t h
  cases r with
  | cntr => exact writeCntr_touches _ s t h
  | dreg d => cases h; exact writeDreg_touches (by simpa using hm) d v s
  | sb => cases h; exact .single (.bank _ (by simpa using hm))
  | astat => cases h; exact loadAstat_touches (ha rfl) _ s
  | mstat => cases h; exact .single (.mstat _ (by simpa using hm))
  | imask => cases h; exact .single (.imask v)
  | icntl => cases h; exact .single (.icntl v)
  | i | m | l | px | port => cases h; exact .free (by constructor <;> rfl)

theorem writeDst_touches {d : DstReg} (ha : d = .reg .astat → loadsAstat i = true)
    (hm : loadsMstat i = decide (d = .reg .mstat)) (v : Word) : EffectTouches i (writeDst d v) := by
  intro s t h
  cases d with
  | reg r => exact writeReg_touches (fun e => ha (congrArg _ e)) (by simpa using hm) v s t h
  | owrcntr | ifc => cases h; exact .free (by constructor <;> rfl)

theorem readReg_touches (r : Reg) : ReadTouches i (readReg r) := by
  intro s v t h
  obtain ⟨-, rfl | ⟨p, -, rfl⟩⟩ := readReg_inv r s v t h
  · exact .refl
  · exact .free (by constructor <;> rfl)

theorem readSrc_touches (r : SrcReg) : ReadTouches i (readSrc r) := by
  intro s v t h
  obtain ⟨-, rfl | ⟨p, -, rfl⟩⟩ := readSrc_inv r s v t h
  · exact .refl
  · exact .free (by constructor <;> rfl)

theorem memReadDm_touches (a : Addr) : ReadTouches i (memReadDm a) := by
  intro s v t h
  obtain ⟨rfl, -⟩ | ⟨-, rfl⟩ := memReadDm_inv a s v t h
  · exact .refl
  · exact .free (by constructor <;> rfl)

theorem memReadPm_sameCore {a : Addr} {s : State} {v : PWord} {t : State} (h : memReadPm a s = .ok (v, t)) :
    SameCore s t := by
  obtain ⟨rfl, -⟩ | ⟨-, rfl⟩ := memReadPm_inv a s v t h <;> constructor <;> rfl

theorem memReadPm_touches (a : Addr) : ReadTouches i (memReadPm a) := fun _ _ _ h => .free (memReadPm_sameCore h)

theorem memWriteDm_touches (a : Addr) (v : Word) : EffectTouches i (memWriteDm a v) := by
  intro s t h
  obtain rfl | rfl := memWriteDm_inv a v s t h
  · exact .single (.storeDm a v)
  · exact .free (by constructor <;> rfl)

theorem memWritePm_touches (a : Addr) (v : PWord) : EffectTouches i (memWritePm a v) := by
  intro s t h
  obtain rfl | rfl := memWritePm_inv a v s t h
  · exact .trans (.single (.markDirty a.toNat)) (.single (.storePm a v))
  · exact .trans (.single (.markDirty a.toNat)) (.free (by constructor <;> rfl))

theorem dmFetch_touches {g : Dag} {n m : Fin 4} {s : State} {v : Word} {t : State} {a : Addr}
    (h : dmFetch g n m s = .ok (v, t, a)) : Touches i s t :=
  memReadDm_touches _ s v t (dmFetch_inv g n m s v t a h).2

theorem pmFetch_touches {n m : Fin 4} {s : State} {w : PWord} {t : State} {a : Addr}
    (h : pmFetch n m s = .ok (w, t, a)) : Touches i s t :=
  memReadPm_touches _ s w t (pmFetch_inv n m s w t a h).2

theorem dmStore_touches (g : Dag) (v : Word) (n m : Fin 4) : EffectTouches i (dmStore g v n m) := by
  intro s u h
  obtain ⟨a, t, -, hw, rfl⟩ := dmStore_inv g v n m s u h
  exact (memWriteDm_touches _ v s t hw).trans (setI_touches g n a t)

theorem pmStore_touches (v : Word) (n m : Fin 4) : EffectTouches i (pmStore v n m) := by
  intro s u h
  obtain ⟨a, t, -, hw, rfl⟩ := pmStore_inv v n m s u h
  exact (memWritePm_touches _ _ s t hw).trans (setI_touches .two n a t)

/-! ## Conditions, sequencing and transfers -/

theorem evalCond_touches (c : Cond) : ReadTouches i (evalCond c) := by
  intro s b t h
  obtain ⟨-, rfl, -⟩ := evalCond_inv c s b t h
  exact tested_touches c s

theorem testFlagIn_touches (on : Bool) : ReadTouches i (testFlagIn on) := by
  rintro s b t ⟨⟩
  exact .free (by constructor <;> rfl)

theorem ifCond_touches (c : Cond) {f : State → Except Fault State} (hf : EffectTouches i f) :
    EffectTouches i (ifCond c f) := by
  intro s u h
  obtain ⟨-, h⟩ | ⟨-, rfl⟩ := ifCond_inv c f s u h
  · exact (tested_touches c s).trans (hf _ u h)
  · exact tested_touches c s

/-- The tick of CE that sequencing makes at the end of a CE loop (R372) leaves the PC and the loop stack. -/
theorem optionalTick_touches (ce : Bool) (s : State) :
    Touches i s (if ce then ceTick s else s) ∧ (if ce then ceTick s else s).pcStack = s.pcStack ∧
      (if ce then ceTick s else s).loopStack = s.loopStack := by
  cases ce
  · exact ⟨.refl, rfl, rfl⟩
  · exact ⟨ceTick_touches s, ceTick_pcStack s, ceTick_loopStack s⟩

theorem nextPc_touches (q : Seq) : EffectTouches i (nextPc q) := by
  intro t u h
  obtain ⟨-, rfl⟩ | ⟨ce, a, rest, -, -, rfl⟩ | ⟨ce, a, rest, l, ls, -, hp, hl, rfl⟩ := sequence_inv q t u h
  · exact .free (by constructor <;> rfl)
  · exact .trans (optionalTick_touches ce t).1 (.free (by constructor <;> rfl))
  · obtain ⟨ht, hpc, hloop⟩ := optionalTick_touches (i := i) ce t
    refine .trans ht (.trans (.single (.popPc (hpc.trans hp))) (.trans (.single (.popLoop (hloop.trans hl))) ?_))
    exact .free (by constructor <;> rfl)

theorem runPlain_touches (g : Guard) {eff : State → Except Fault State} (he : EffectTouches i eff) (s : State) :
    OutcomeTouches i s (runPlain g eff s) := by
  refine EffectTouches.outcome (fun s u h => ?_) s
  obtain ⟨q, t, -, -, ht, hu⟩ := runSeq_inv g eff s u h
  exact (he s t ht).trans (nextPc_touches q t u hu)

theorem runBranch_touches (g : Guard) {test : State → Except Fault (Bool × State)}
    {take : State → Except Fault State} (ht : ReadTouches i test) (hk : EffectTouches i take) (s : State) :
    OutcomeTouches i s (runBranch g test take s) := by
  refine EffectTouches.outcome (fun s u h => ?_) s
  obtain ⟨-, b, t, htest, ⟨-, -, hu⟩ | ⟨-, q, -, hu⟩⟩ := runTransfer_inv g test take s u h
  · exact (ht s b t htest).trans (hk t u hu)
  · exact (ht s b t htest).trans (nextPc_touches q t u hu)

/-- An instruction whose own effect always completes. -/
theorem runUpdate_touches (g : Guard) {f : State → State} (hf : UpdateTouches i f) (s : State) :
    OutcomeTouches i s (runPlain g (fun t => .ok (f t)) s) :=
  runPlain_touches g hf.effect s

/-- The same under a condition. -/
theorem runCondUpdate_touches (c : Cond) {f : State → State} (hf : UpdateTouches i f) (s : State) :
    OutcomeTouches i s (runPlain (.cond c) (ifCond c fun t => .ok (f t)) s) :=
  runPlain_touches _ (ifCond_touches c hf.effect) s

/-! ## The units -/

/-- One flag of ASTAT written by an instruction that may write it. -/
theorem setFlag_touches {n : Nat} (hn : n < 8) (hw : writesFlag i n = true) (b : Bool) :
    UpdateTouches i fun s => { s with astat := setBitTo s.astat n b } := by
  refine fun s => .single (.astat fun k hk => ?_)
  have hne : k ≠ n := by rintro rfl; simp [hw] at hk
  rw [getLsbD_setBitTo _ _ _ _ hn, if_neg hne]

/-- AS is the function's where it gives one, every other bit the ALU's four or kept (R202). -/
theorem getLsbD_aluAstat (m : BitVec 7) (f : BitVec 8) (r : Word) (ov ac : Bool) (as : Option Bool) (k : Nat) :
    (aluAstat m f r ov ac as).getLsbD k =
      if k = 4 then as.getD (f.getLsbD 4) else (withAluFlags f (r == 0) r.msb (latchedAv m f ov) ac).getLsbD k := by
  cases as with
  | none =>
    split
    · next h => rw [h]; exact getLsbD_withAluFlags_high f _ _ _ _ 4 (by decide)
    · rfl
  | some b => exact getLsbD_setBitTo _ 4 k b (by decide)

/-- The ALU's part of ASTAT (R202) is the lower four bits, and AS where the function gives it. -/
theorem getLsbD_aluAstat_of_kept (m : BitVec 7) (f : BitVec 8) (r : Word) (ov ac : Bool) (as : Option Bool) {k : Nat}
    (hk : 4 ≤ k) (has : as = none ∨ k ≠ 4) : (aluAstat m f r ov ac as).getLsbD k = f.getLsbD k := by
  rw [getLsbD_aluAstat]
  split
  · next h => rw [has.resolve_right (not_not_intro h), h]; rfl
  · exact getLsbD_withAluFlags_high f _ _ _ _ k hk

/-- An ALU instruction may write the lower four bits, so a bit it may not write lies above them. -/
theorem four_le_of_not_writesFlag (hf : setsAluFlags i = true) {k : Nat} (hk : writesFlag i k = false) : 4 ≤ k := by
  by_contra hlt
  simp [writesFlag, hf, Nat.lt_of_not_le hlt] at hk

theorem setAluFlags_touches (hf : setsAluFlags i = true) {o : AluOut} (has : o.as = none ∨ setsAs i = true) :
    UpdateTouches i (setAluFlags o) := by
  refine fun s => .single (.astat fun k hk => ?_)
  refine getLsbD_aluAstat_of_kept _ _ _ _ _ _ (four_le_of_not_writesFlag hf hk) (has.imp_right fun h => ?_)
  rintro rfl
  simp [writesFlag, h] at hk

/-- Only ABS gives AS (R38). -/
theorem alu_as_eq_none {f : AluFn} (h : f ≠ .abs) (x y : Word) (c : Bool) : (alu f x y c).as = none := by
  cases f with
  | abs => exact absurd rfl h
  | _ => rfl

theorem alu_as_eq_none_or {f : AluFn} (h : f = .abs → setsAs i = true) (x y : Word) (c : Bool) :
    (alu f x y c).as = none ∨ setsAs i = true := by
  by_cases hf : f = .abs
  · exact .inr (h hf)
  · exact .inl (alu_as_eq_none hf x y c)

theorem writeAluDest_touches (hb : loadsMstat i = false) (z : Dest) (o : AluOut) :
    UpdateTouches i (writeAluDest z o) := by
  intro s
  unfold writeAluDest
  cases z <;> exact .single (.bank _ hb)

theorem commitAlu_touches (hb : loadsMstat i = false) (hf : setsAluFlags i = true) {o : AluOut}
    (has : o.as = none ∨ setsAs i = true) (z : Dest) : UpdateTouches i (commitAlu z o) :=
  fun s => (setAluFlags_touches hf has s).trans (writeAluDest_touches hb z o _)

theorem commitMac_touches (hb : loadsMstat i = false) (hv : setsMv i = true) (z : Dest) (r : Acc) (mv : Bool) :
    UpdateTouches i (commitMac z r mv) := by
  intro s
  have hflag : Touches i s { s with astat := withMv s.astat mv } :=
    setFlag_touches (n := 6) (by decide) (by simp [writesFlag, hv]) mv s
  refine hflag.trans ?_
  unfold commitMac
  cases z <;> exact .single (.bank _ hb)

/-- The free flags of PASS constant (R221) are the ALU's four. -/
theorem passOther_touches (hb : loadsMstat i = false) (hf : setsAluFlags i = true) (z : Dest) (r : Word) :
    UpdateTouches i (passOther z r) := by
  intro s
  have hdrawn : Touches i s s.drawn := .free (by constructor <;> rfl)
  have hflags (t : State) (az an av ac : Bool) : Touches i t { t with astat := withAluFlags t.astat az an av ac } :=
    .single (.astat fun k hk => getLsbD_withAluFlags_high _ _ _ _ _ k (four_le_of_not_writesFlag hf hk))
  unfold passOther
  cases z <;> exact hdrawn.trans ((hflags s.drawn _ _ _ _).trans (.single (.bank _ hb)))

theorem passKonst_touches (hb : loadsMstat i = false) (hf : setsAluFlags i = true) {f : AluFn} (hn : f ≠ .abs)
    (z : Dest) (y : Word) : UpdateTouches i (passKonst f z y) := by
  intro s
  cases h : passDefines (alu f 0 y (acOf s.astat)).r
  · rw [passKonst_other f z y s h]
    exact passOther_touches hb hf z _ s
  · rw [passKonst_defined f z y s h]
    exact commitAlu_touches hb hf (.inl (alu_as_eq_none hn _ _ _)) z s

theorem divideStep_touches (hb : loadsMstat i = false) (hq : setsAq i = true) (t : Word) (b q : Bool) :
    UpdateTouches i (divideStep t b q) := fun s =>
  .trans (.single (.bank _ hb)) (setFlag_touches (by decide) (by simp [writesFlag, hq]) q (s.mapBank _))

theorem satMr_touches (hb : loadsMstat i = false) : UpdateTouches i satMr := by
  intro s
  unfold satMr
  split
  · exact .single (.bank _ hb)
  · exact .refl

theorem writeSeAndSs_touches (hb : loadsMstat i = false) (hs : setsSs i = true) (v : Int) (b : Bool) :
    UpdateTouches i fun s => { writeSe v s with astat := withSs s.astat b } := fun s =>
  .trans (.single (.bank _ hb)) (setFlag_touches (by decide) (by simp [writesFlag, hs]) b (s.mapBank _))

theorem doExpHi_touches (hb : loadsMstat i = false) (hs : setsSs i = true) (x : Word) :
    UpdateTouches i (doExpHi x) :=
  writeSeAndSs_touches hb hs _ _

theorem doExpHix_touches (hb : loadsMstat i = false) (hs : setsSs i = true) (x : Word) :
    UpdateTouches i (doExpHix x) := by
  intro s
  unfold doExpHix
  split
  · exact writeSeAndSs_touches hb hs _ _ s
  · exact doExpHi_touches hb hs x s

theorem commitShift_touches (hb : loadsMstat i = false) (orSr : Bool) (v : BitVec 32) :
    UpdateTouches i (commitShift orSr v) :=
  fun _ => .single (.bank _ hb)

theorem doExpLo_touches (hb : loadsMstat i = false) (x : Word) : UpdateTouches i (doExpLo x) :=
  fun _ => .single (.bank _ hb)

theorem doExpAdj_touches (hb : loadsMstat i = false) (x : Word) : UpdateTouches i (doExpAdj x) :=
  fun _ => .single (.bank _ hb)

theorem shiftClause_touches (hb : loadsMstat i = false) {f : ShFn} (hs : f = .expHi ∨ f = .expHix → setsSs i = true)
    (x : Word) : UpdateTouches i (shiftClause f x) := by
  intro s
  cases f with
  | expHi => exact doExpHi_touches hb (hs (.inl rfl)) x s
  | expHix => exact doExpHix_touches hb (hs (.inr rfl)) x s
  | lshiftHi | lshiftHiOr | lshiftLo | lshiftLoOr | ashiftHi | ashiftHiOr | ashiftLo | ashiftLoOr | normHi | normHiOr
  | normLo | normLoOr => exact commitShift_touches hb _ _ s
  | expLo => exact doExpLo_touches hb x s
  | expAdj => exact doExpAdj_touches hb x s

/-- The instruction may set the flags of the computation clause (R38). -/
def SetsFlagsOf (i : Instr) : Calc → Prop
  | .alu f _ _ => setsAluFlags i = true ∧ (f = .abs → setsAs i = true)
  | .mac _ _ _ _ => setsMv i = true

theorem compute_touches (hb : loadsMstat i = false) {k : Calc} (hk : SetsFlagsOf i k) (z : Dest) (pre : State) :
    UpdateTouches i (compute z k pre) := by
  cases k with
  | alu f x y => exact commitAlu_touches hb hk.1 (alu_as_eq_none_or hk.2 _ _ _) z
  | mac op fmt x y => exact commitMac_touches hb hk z _ _

theorem runAlu_touches {f : AluFn} (hb : loadsMstat i = false) (hf : setsAluFlags i = true)
    (has : f = .abs → setsAs i = true) (z : Dest) (x y : State → Word) (c : Cond) (s : State) :
    OutcomeTouches i s (runAlu f z x y c s) :=
  runCondUpdate_touches c (commitAlu_touches hb hf (alu_as_eq_none_or has _ _ _) z) s

theorem runPassKonst_touches {f : AluFn} (hb : loadsMstat i = false) (hf : setsAluFlags i = true) (hn : f ≠ .abs)
    (z : Dest) (k : Konst) (c : Cond) (s : State) : OutcomeTouches i s (runPassKonst f z k c s) :=
  runCondUpdate_touches c (passKonst_touches hb hf hn z _) s

theorem runMac_touches (hb : loadsMstat i = false) (hv : setsMv i = true) (op : MacOp) (fmt : MacFmt) (z : Dest)
    (x y : State → Word) (c : Cond) (s : State) : OutcomeTouches i s (runMac op fmt z x y c s) :=
  runCondUpdate_touches c (commitMac_touches hb hv z _ _) s

/-! ## Moves -/

theorem moveReg_touches {d : DstReg} (hd : ∀ v, EffectTouches i (writeDst d v)) (r : SrcReg) :
    EffectTouches i (moveReg d r) := by
  intro s u h
  unfold moveReg at h
  split at h
  · cases h
  · next v t ht => exact (readSrc_touches r s v t ht).trans (hd v t u h)

theorem loadDirect_touches {d : DstReg} (hd : ∀ v, EffectTouches i (writeDst d v)) (a : Addr) :
    EffectTouches i (loadDirect d a) := by
  intro s u h
  unfold loadDirect at h
  split at h
  · cases h
  · next v t ht => exact (memReadDm_touches a s v t ht).trans (hd v t u h)

theorem storeDirect_touches (a : Addr) (r : SrcReg) : EffectTouches i (storeDirect a r) := by
  intro s u h
  unfold storeDirect at h
  split at h
  · cases h
  · next v t ht => exact (readSrc_touches r s v t ht).trans (memWriteDm_touches a v t u h)

theorem withDmRead_touches (hb : loadsMstat i = false) {clause : State → State} (hc : UpdateTouches i clause) (g : Dag)
    (d : Dreg) (n m : Fin 4) : EffectTouches i (withDmRead clause g d n m) := by
  intro s u h
  unfold withDmRead at h
  split at h
  · cases h
  · next v t a ht =>
    cases h
    exact (((dmFetch_touches ht).trans (hc t)).trans (writeDreg_touches hb d v _)).trans (setI_touches g n a _)

theorem withPmRead_touches (hb : loadsMstat i = false) {clause : State → State} (hc : UpdateTouches i clause) (d : Dreg)
    (n m : Fin 4) : EffectTouches i (withPmRead clause d n m) := by
  intro s u h
  unfold withPmRead at h
  split at h
  · cases h
  · next w t a ht =>
    cases h
    exact (((pmFetch_touches ht).trans (hc t)).trans (loadFromPm_touches hb d w _)).trans (setI_touches .two n a _)

/-- An indirect load alone is one beside a clause that does nothing. -/
theorem loadDm_touches (hb : loadsMstat i = false) (g : Dag) (d : Dreg) (n m : Fin 4) :
    EffectTouches i (loadDm g d n m) :=
  withDmRead_touches (clause := id) hb (fun _ => .refl) g d n m

theorem loadPm_touches (hb : loadsMstat i = false) (d : Dreg) (n m : Fin 4) : EffectTouches i (loadPm d n m) :=
  withPmRead_touches (clause := id) hb (fun _ => .refl) d n m

theorem withDualRead_touches (hb : loadsMstat i = false) {clause : State → State} (hc : UpdateTouches i clause)
    (pd : PdReg) (dd : DdReg) (pi pm di dm : Fin 4) : EffectTouches i (withDualRead clause pd dd pi pm di dm) := by
  intro s x h
  unfold withDualRead at h
  split at h
  · cases h
  · next ai hai =>
    split at h
    · cases h
    · next w t ap ht =>
      split at h
      · cases h
      · next v u hu =>
        cases h
        have hread : Touches i s u := (pmFetch_touches ht).trans (memReadDm_touches _ t v u hu)
        have hload := ((hread.trans (hc u)).trans (writeDreg_touches hb (DdReg.toDreg dd) v _)).trans
          (loadFromPm_touches hb (PdReg.toDreg pd) w _)
        exact (hload.trans (setI_touches .one di ai _)).trans (setI_touches .two pi ap _)

theorem afterStore_touches {clause : State → State} {store : State → Except Fault State} (hc : UpdateTouches i clause)
    (hs : EffectTouches i store) : EffectTouches i (afterStore clause store) := by
  intro s u h
  unfold afterStore at h
  split at h
  · cases h
  · next t ht =>
    cases h
    exact (hs s t ht).trans (hc t)

theorem computeMove_touches (hb : loadsMstat i = false) {k : Option Calc} (hk : ∀ c, k = some c → SetsFlagsOf i c)
    (z : Dest) (d r : Dreg) : UpdateTouches i (computeMove z k d r) := by
  intro s
  cases k with
  | none => exact writeDreg_touches hb d _ s
  | some c => exact (compute_touches hb (hk c rfl) z s s).trans (writeDreg_touches hb d _ _)

theorem unlessTwoWriters_touches (bad : Bool) {eff : State → Except Fault State} (he : EffectTouches i eff)
    (s : State) : OutcomeTouches i s (unlessTwoWriters bad eff s) := by
  unfold unlessTwoWriters
  split
  · rintro t ⟨⟩
  · exact runPlain_touches .plain he s

/-! ## Program flow and misc -/

theorem takeJump_touches (a : Addr) : EffectTouches i (takeJump a) :=
  UpdateTouches.effect fun _ => .free (by constructor <;> rfl)

theorem takeCall_touches (a : Addr) : EffectTouches i (takeCall a) := by
  intro s u h
  unfold takeCall at h
  split at h
  · cases h
  · next t ht =>
    cases h
    exact (pushPc_touches _ s t ht).trans (.free (by constructor <;> rfl))

theorem takeReturn_touches : EffectTouches i takeReturn := by
  intro s u h
  unfold takeReturn at h
  split at h
  · cases h
  · next a t ht =>
    cases h
    exact (popPc_touches s a t ht).trans (.free (by constructor <;> rfl))

theorem returnFromInterrupt_touches (ha : loadsAstat i = true) (hm : loadsMstat i = true) :
    EffectTouches i returnFromInterrupt := by
  intro s u h
  unfold returnFromInterrupt at h
  split at h
  · cases h
  · next a t ht =>
    have hpc : Touches i s { t with pc := a } := (popPc_touches s a t ht).trans (.free (by constructor <;> rfl))
    exact hpc.trans (popSts_touches ha hm _ u h)

theorem drivePins_touches (f2 f1 f0 fo : PinOp) : UpdateTouches i (drivePins f2 f1 f0 fo) := by
  intro s
  have h2 : Touches i s (driveFl2 f2 s) := .free (by cases f2 <;> constructor <;> rfl)
  have h1 (t : State) : Touches i t (driveFl1 f1 t) := .free (by cases f1 <;> constructor <;> rfl)
  have h0 (t : State) : Touches i t (driveFl0 f0 t) := .free (by cases f0 <;> constructor <;> rfl)
  have ho (t : State) : Touches i t (driveFlagOut fo t) := .free (by cases fo <;> constructor <;> rfl)
  exact ((h2.trans (h1 _)).trans (h0 _)).trans (ho _)

/-- DO UNTIL pushes only with room on both stacks (R370). -/
theorem startLoop_touches (a : Addr) (e : Term) : UpdateTouches i (startLoop a e) := by
  intro s
  unfold startLoop
  dsimp only
  split
  · exact .free (by constructor <;> rfl)
  · next hroom =>
    simp only [Bool.or_eq_true, decide_eq_true_eq, not_or, not_le] at hroom
    obtain ⟨hloop, hpc⟩ := hroom
    exact .trans (.single (.pushLoop ⟨a, e⟩ hloop)) (.single (.pushPc (s.pc + 1) hpc))

theorem controlStatus_touches {sp : StsOp} (h : sp = .pop → loadsAstat i = true ∧ loadsMstat i = true) :
    EffectTouches i (controlStatus sp) := by
  cases sp with
  | keep => exact UpdateTouches.effect fun _ => .refl
  | push => exact pushSts_touches
  | pop => exact popSts_touches (h rfl).1 (h rfl).2

theorem controlPops_touches (pp lp cp : Bool) : EffectTouches i (controlPops pp lp cp) := by
  intro s u h
  unfold controlPops at h
  split at h
  · cases h
  · next s1 h1 =>
    have hcntr : Touches i s s1 := by
      cases cp
      · cases h1; exact .refl
      · exact popCntr_touches s s1 h1
    split at h
    · cases h
    · next a s2 h2 =>
      have hpc : Touches i s1 s2 := by
        cases pp
        · cases h2; exact .refl
        · exact popPc_touches s1 a s2 h2
      have hloop : Touches i s2 u := by
        cases lp
        · cases h; exact .refl
        · exact popLoop_touches s2 u h
      exact (hcntr.trans hpc).trans hloop

theorem controlStacks_touches (pp lp cp : Bool) {sp : StsOp}
    (h : sp = .pop → loadsAstat i = true ∧ loadsMstat i = true) : EffectTouches i (controlStacks pp lp cp sp) := by
  intro s u hu
  unfold controlStacks at hu
  split at hu
  · cases hu
  · next t ht => exact (controlStatus_touches h s t ht).trans (controlPops_touches pp lp cp t u hu)

/-- What `reg = TOPPCSTACK` leaves (R396): the register written, nothing popped yet, the pop pending. -/
theorem readTopPc_inv (r : Reg) (s u : State) (h : readTopPc r s = .ok u) :
    ∃ a rest t, s.pcStack = a :: rest ∧ writeReg r (a.setWidth 16) s = .ok t ∧ u = { t with pcPopPending := true } := by
  unfold readTopPc topPc at h
  cases hp : s.pcStack with
  | nil => simp [hp] at h
  | cons a rest =>
    cases hw : writeReg r (a.setWidth 16) s with
    | error e => simp [hp, hw] at h
    | ok t =>
      simp only [hp, hw, Except.ok.injEq] at h
      exact ⟨a, rest, t, rfl, hw, h.symm⟩

theorem readTopPc_touches {r : Reg} (hi : i = .regFromTop r) (hr : ∀ v, EffectTouches i (writeReg r v)) :
    EffectTouches i (readTopPc r) := by
  intro s u h
  obtain ⟨a, rest, t, -, ht, rfl⟩ := readTopPc_inv r s u h
  exact (hr _ s t ht).trans (.single (.popPending hi))

theorem writeTopPc_touches (r : Reg) : EffectTouches i (writeTopPc r) := by
  intro s u h
  unfold writeTopPc at h
  split at h
  · cases h
  · next v t ht => exact (readReg_touches r s v t ht).trans (pushPc_touches _ t u h)

theorem modifyI_touches (g : Dag) (n m : Fin 4) : EffectTouches i (modifyI g n m) := by
  intro s u h
  unfold modifyI at h
  split at h
  · cases h
  · next a ha =>
    cases h
    exact setI_touches g n a s

/-! ## Every instruction -/

/-- The destination of a move that may be any register (R313, R316, R320, R396). -/
def moveDst : Instr → Option DstReg
  | .regMove d _ | .loadReg d _ | .dmReadDirect d _ => some d
  | .regFromTop r => some (.reg r)
  | _ => none

/-- Such a move loads ASTAT or MSTAT exactly when that is its destination. -/
theorem loads_of_moveDst {d : DstReg} (h : moveDst i = some d) :
    (d = .reg .astat → loadsAstat i = true) ∧ loadsMstat i = decide (d = .reg .mstat) := by
  unfold moveDst at h
  split at h <;> cases h
  case h_4 r =>
    refine ⟨fun hr => ?_, by cases r <;> rfl⟩
    cases hr
    rfl
  all_goals
    refine ⟨by rintro rfl; rfl, ?_⟩
    rcases d with r | _ | _
    · cases r <;> rfl
    · rfl
    · rfl

theorem writeMoveDst_touches {d : DstReg} (h : moveDst i = some d) (v : Word) : EffectTouches i (writeDst d v) :=
  writeDst_touches (loads_of_moveDst h).1 (loads_of_moveDst h).2 v

/-- The computation clause of a multifunction instruction (R421). -/
def calcOf : Instr → Option Calc
  | .compDmRead _ _ k _ _ _ | .compPmRead _ k _ _ _ | .compDmWrite _ _ k _ _ _ | .compPmWrite _ k _ _ _ => some k
  | .compDualRead k _ _ _ _ _ _ => some k
  | .compMove _ k _ _ => k
  | _ => none

/-- The flags of its computation clause are a multifunction instruction's to set (R38). -/
theorem setsFlagsOf_of_calcOf {k : Calc} (h : calcOf i = some k) : SetsFlagsOf i k := by
  unfold calcOf at h
  split at h <;> cases h
  all_goals
    cases k with
    | alu f x y => exact ⟨rfl, by rintro rfl; rfl⟩
    | mac op fmt x y => exact rfl

/-- The shifter clause of a multifunction instruction (R421). -/
def shiftOf : Instr → Option ShFn
  | .shiftDmRead _ f _ _ _ _ | .shiftPmRead f _ _ _ _ | .shiftMove f _ _ _ => some f
  | .shiftDmWrite _ f _ _ _ _ | .shiftPmWrite f _ _ _ _ => some f
  | _ => none

/-- SS is a multifunction EXP's to set (R38). -/
theorem setsSs_of_shiftOf {f : ShFn} (h : shiftOf i = some f) (hf : f = .expHi ∨ f = .expHix) : setsSs i = true := by
  unfold shiftOf at h
  split at h <;> cases h <;> rcases hf with rfl | rfl <;> rfl

theorem calcClause_touches (hb : loadsMstat i = false) {k : Calc} (h : calcOf i = some k) (z : Dest) (pre : State) :
    UpdateTouches i (compute z k pre) :=
  compute_touches hb (setsFlagsOf_of_calcOf h) z pre

theorem shifterClause_touches (hb : loadsMstat i = false) {f : ShFn} (h : shiftOf i = some f) (x : Word) :
    UpdateTouches i (shiftClause f x) :=
  shiftClause_touches hb (setsSs_of_shiftOf h) x

/-- Every instruction that completes is a chain of the changes it may make. -/
theorem exec_touches (i : Instr) (s : State) : OutcomeTouches i s (exec i s) := by
  cases i with
  | addXY | addXK | addcXY | addcXK | subXY | subXK | subbXY | subbXK | rsubXY | rsubXK | rsubbXY | rsubbXK | andXY
  | andXK | orXY | orXK | xorXY | xorXK | tstBit | setBit | clrBit | tglBit | passY | passZero | passX | passOne
  | passMinusOne | negX | negY | notX | notY | incY | decY =>
    apply runAlu_touches rfl rfl
    nofun
  | absX =>
    apply runAlu_touches rfl rfl
    exact fun _ => rfl
  | passK | passKInc | passKDec =>
    apply runPassKonst_touches rfl rfl
    nofun
  | divs y x => exact runUpdate_touches .plain (fun t => divideStep_touches rfl rfl _ _ _ t) s
  | divq x => exact runUpdate_touches .plain (fun t => divideStep_touches rfl rfl _ _ _ t) s
  | noneAlu f x y =>
    have has : f = .abs → setsAs (.noneAlu f x y) = true := by rintro rfl; rfl
    exact runUpdate_touches .plain (fun t => setAluFlags_touches rfl (alu_as_eq_none_or has _ _ _) t) s
  | mulSS | mulSU | mulUS | mulUU | mulRND | macSS | macSU | macUS | macUU | macRND | msubSS | msubSU | msubUS | msubUU
  | msubRND | sqSS | sqUU | sqRND | macSqSS | macSqUU | macSqRND | msubSqSS | msubSqUU | msubSqRND =>
    apply runMac_touches rfl rfl
  | clearMR | transferMR | transferMRRnd => exact runCondUpdate_touches _ (commitMac_touches rfl rfl _ _ _) s
  | satMR => exact runUpdate_touches .plain (satMr_touches rfl) s
  | lshiftHi | lshiftHiOr | lshiftLo | lshiftLoOr | ashiftHi | ashiftHiOr | ashiftLo | ashiftLoOr | normHi | normHiOr
  | normLo | normLoOr => exact runCondUpdate_touches _ (fun t => commitShift_touches rfl _ _ t) s
  | expLo x c => exact runCondUpdate_touches c (fun t => doExpLo_touches rfl _ t) s
  | expAdj x c => exact runCondUpdate_touches c (fun t => doExpAdj_touches rfl _ t) s
  | expHi x c => exact runCondUpdate_touches c (fun t => doExpHi_touches rfl rfl _ t) s
  | expHix x c => exact runCondUpdate_touches c (fun t => doExpHix_touches rfl rfl _ t) s
  | lshiftImmHi | lshiftImmHiOr | lshiftImmLo | lshiftImmLoOr | ashiftImmHi | ashiftImmHiOr | ashiftImmLo
  | ashiftImmLoOr => exact runUpdate_touches _ (fun t => commitShift_touches rfl _ _ t) s
  | regMove d r => exact runPlain_touches _ (moveReg_touches (writeMoveDst_touches rfl) r) s
  | loadDreg d v => exact runUpdate_touches .plain (writeDreg_touches rfl d v) s
  | loadReg d v => exact runPlain_touches _ (writeMoveDst_touches rfl _) s
  | dmReadDirect d a => exact runPlain_touches _ (loadDirect_touches (writeMoveDst_touches rfl) a) s
  | dmWriteDirect a r => exact runPlain_touches _ (storeDirect_touches a r) s
  | dmRead g d p m => exact runPlain_touches _ (loadDm_touches rfl g d p m) s
  | dmWrite g r p m => exact runPlain_touches _ (fun t => dmStore_touches g _ p m t) s
  | dmWriteImm g v p m => exact runPlain_touches _ (dmStore_touches g v p m) s
  | pmRead d p m => exact runPlain_touches _ (loadPm_touches rfl d p m) s
  | pmWrite r p m => exact runPlain_touches _ (fun t => pmStore_touches _ p m t) s
  | ioRead d a =>
    have hread (t : State) : Touches (.ioRead d a) t (ioReadWord a t).2 := .free (by constructor <;> rfl)
    exact runUpdate_touches .plain (fun t => (hread t).trans (writeDreg_touches rfl d _ _)) s
  | jump | jumpInd => exact runBranch_touches _ (evalCond_touches _) (takeJump_touches _) s
  | call | callInd => exact runBranch_touches _ (evalCond_touches _) (takeCall_touches _) s
  | jumpFlagIn on a => exact runBranch_touches _ (testFlagIn_touches on) (takeJump_touches a) s
  | callFlagIn on a => exact runBranch_touches _ (testFlagIn_touches on) (takeCall_touches a) s
  | flagOut f2 f1 f0 fo c => exact runCondUpdate_touches c (drivePins_touches f2 f1 f0 fo) s
  | rts c => exact runBranch_touches _ (evalCond_touches c) takeReturn_touches s
  | rti c => exact runBranch_touches _ (evalCond_touches c) (returnFromInterrupt_touches rfl rfl) s
  | doUntil a t => exact runUpdate_touches _ (startLoop_touches a t) s
  | ioWrite | idle | idleN | nop | nopType9 =>
    apply runUpdate_touches
    exact fun _ => .free (by constructor <;> rfl)
  | modeControl ti mm as ol br sr gm => exact runUpdate_touches .plain (fun t => .single (.mstat _ rfl)) s
  | enaInts => exact runUpdate_touches .plain (fun t => .single (.intsEn true (.inl rfl))) s
  | disInts => exact runUpdate_touches .plain (fun t => .single (.intsEn false (.inr rfl))) s
  | stackControl pp lp cp sp =>
    have hpop : sp = .pop → loadsAstat (.stackControl pp lp cp sp) = true ∧
        loadsMstat (.stackControl pp lp cp sp) = true := by rintro rfl; exact ⟨rfl, rfl⟩
    exact runPlain_touches _ (controlStacks_touches pp lp cp hpop) s
  | regFromTop d => exact runPlain_touches _ (readTopPc_touches rfl (writeMoveDst_touches (d := .reg d) rfl)) s
  | topFromReg r => exact runPlain_touches _ (writeTopPc_touches r) s
  | modify g p m => exact runPlain_touches _ (modifyI_touches g p m) s
  | compDmRead g z k d p m =>
    exact unlessTwoWriters_touches _ (fun t => withDmRead_touches rfl (calcClause_touches rfl rfl z t) g d p m t) s
  | compPmRead z k d p m =>
    exact unlessTwoWriters_touches _ (fun t => withPmRead_touches rfl (calcClause_touches rfl rfl z t) d p m t) s
  | shiftDmRead g f x d p m =>
    exact unlessTwoWriters_touches _ (fun t => withDmRead_touches rfl (shifterClause_touches rfl rfl _) g d p m t) s
  | shiftPmRead f x d p m =>
    exact unlessTwoWriters_touches _ (fun t => withPmRead_touches rfl (shifterClause_touches rfl rfl _) d p m t) s
  | compMove z k d r =>
    have hk (c : Calc) (hc : k = some c) : SetsFlagsOf (.compMove z k d r) c := setsFlagsOf_of_calcOf hc
    exact unlessTwoWriters_touches _ (computeMove_touches rfl hk z d r).effect s
  | shiftMove f x d r =>
    exact unlessTwoWriters_touches _
      (UpdateTouches.effect fun t => (shifterClause_touches rfl rfl _ t).trans (writeDreg_touches rfl d _ _)) s
  | compDmWrite g z k r p m =>
    exact runPlain_touches _ (fun t => afterStore_touches (calcClause_touches rfl rfl z t) (dmStore_touches g _ p m) t) s
  | compPmWrite z k r p m =>
    exact runPlain_touches _ (fun t => afterStore_touches (calcClause_touches rfl rfl z t) (pmStore_touches _ p m) t) s
  | shiftDmWrite g f x r p m =>
    exact runPlain_touches _
      (fun t => afterStore_touches (shifterClause_touches rfl rfl _) (dmStore_touches g _ p m) t) s
  | shiftPmWrite f x r p m =>
    exact runPlain_touches _
      (fun t => afterStore_touches (shifterClause_touches rfl rfl _) (pmStore_touches _ p m) t) s
  | dualRead pd dd pi pm di dm =>
    exact runPlain_touches _ (withDualRead_touches (clause := id) rfl (fun _ => .refl) pd dd pi pm di dm) s
  | compDualRead k pd dd pi pm di dm =>
    exact runPlain_touches _
      (fun t => withDualRead_touches rfl (calcClause_touches rfl rfl .result t) pd dd pi pm di dm t) s

end Sys2Proof.Machine
end

section
/-!
The invariant of the state (`StateInv`): every elementary change keeps its clauses about the memories, the stacks and the
masks, so every instruction and every step does; the clause about the delayed pop (R396) is argued for the step itself.
-/

namespace Sys2Proof.Machine

open Sys2Proof.Spec

/-! ## The invariant without the delayed pop -/

/-- The clauses of `StateInv` that each elementary change keeps. -/
structure ShapeInv (s : State) : Prop where
  pm : Memory.wf s.pm = true
  dm : Memory.wf s.dm = true
  pmDirty : s.pmDirty.Pairwise (· < ·)
  pcStack : s.pcStack.length ≤ 16
  loopStack : s.loopStack.length ≤ 4
  cntrStack : s.cntrStack.length ≤ s.cfg.cntrStackDepth
  statusStack : s.statusStack.length ≤ s.cfg.statusStackDepth
  imask : ∀ k, s.cfg.imaskBits ≤ k → s.imask.getLsbD k = false
  icntl : ∀ k, s.cfg.icntlBits ≤ k → s.icntl.getLsbD k = false
  savedImask : ∀ e ∈ s.statusStack, ∀ k, s.cfg.imaskBits ≤ k → e.imask.getLsbD k = false
  intsEn : s.cfg.extAluMac = false → s.intsEn = true

theorem stateInv_iff (s : State) :
    StateInv s ↔ ShapeInv s ∧ (s.pcPopPending = true → s.pcStack ≠ []) := by
  constructor
  · rintro ⟨hpm, hdm, hdirty, hpc, hloop, hcntr, hsts, himask, hicntl, hsaved, hints, hpop⟩
    exact ⟨⟨hpm, hdm, hdirty, hpc, hloop, hcntr, hsts, himask, hicntl, hsaved, hints⟩, hpop⟩
  · rintro ⟨⟨hpm, hdm, hdirty, hpc, hloop, hcntr, hsts, himask, hicntl, hsaved, hints⟩, hpop⟩
    exact ⟨hpm, hdm, hdirty, hpc, hloop, hcntr, hsts, himask, hicntl, hsaved, hints, hpop⟩

/-- PM_DIRTY stays a rising list. -/
theorem pairwise_addToSet (l : List Nat) (a : Nat) (h : l.Pairwise (· < ·)) : (addToSet l a).Pairwise (· < ·) := by
  induction l with
  | nil => simp [addToSet]
  | cons b l ih =>
    obtain ⟨hb, hl⟩ := List.pairwise_cons.1 h
    unfold addToSet
    split
    · next hab => exact List.pairwise_cons.2 ⟨List.forall_mem_cons.2 ⟨hab, fun c hc => hab.trans (hb c hc)⟩, h⟩
    · split
      · exact h
      · next hab hne =>
        refine List.pairwise_cons.2 ⟨fun c hc => ?_, ih hl⟩
        obtain rfl | hc := (mem_addToSet l a c).1 hc
        · omega
        · exact hb c hc

theorem length_le_of_eq_cons {α : Type} {l rest : List α} {a : α} {n : Nat} (h : l = a :: rest) (hl : l.length ≤ n) :
    rest.length ≤ n := by
  rw [h, List.length_cons] at hl
  omega

/-- A masked register has no bit above its width. -/
theorem getLsbD_keepLow_of_le {n k : Nat} (h : n ≤ k) (v : BitVec 16) : (keepLow n v).getLsbD k = false := by
  simp [getLsbD_keepLow, h]

/-- The instructions that write INTS_EN exist on `EXT_ALU_MAC` parts only (R410, R411). -/
theorem extAluMac_of_wellFormed {c : Config} {i : Instr} (hw : wellFormed c i = true)
    (h : i = .enaInts ∨ i = .disInts) : c.extAluMac = true := by
  obtain rfl | rfl := h <;> exact hw

theorem SameCore.shapeInv {s t : State} (h : SameCore s t) (hs : ShapeInv s) : ShapeInv t where
  pm := h.pm ▸ hs.pm
  dm := h.dm ▸ hs.dm
  pmDirty := h.pmDirty ▸ hs.pmDirty
  pcStack := h.pcStack ▸ hs.pcStack
  loopStack := h.loopStack ▸ hs.loopStack
  cntrStack := by simpa only [h.cntrStack, h.cfg] using hs.cntrStack
  statusStack := by simpa only [h.statusStack, h.cfg] using hs.statusStack
  imask := by simpa only [h.imask, h.cfg] using hs.imask
  icntl := by simpa only [h.icntl, h.cfg] using hs.icntl
  savedImask := by simpa only [h.statusStack, h.cfg] using hs.savedImask
  intsEn := by simpa only [h.intsEn, h.cfg] using hs.intsEn

theorem Touch.cfg_eq {i : Instr} {s t : State} (h : Touch i s t) : t.cfg = s.cfg := by
  cases h with
  | free h => exact h.cfg
  | _ => rfl

theorem Touch.shapeInv {i : Instr} {s t : State} (h : Touch i s t) (hw : wellFormed s.cfg i = true)
    (hs : ShapeInv s) : ShapeInv t := by
  cases h with
  | free h => exact h.shapeInv hs
  | bank f hb => exact { hs with }
  | astat ha => exact { hs with }
  | mstat m hm => exact { hs with }
  | imask v => exact { hs with imask := fun k hk => getLsbD_keepLow_of_le hk v }
  | icntl v => exact { hs with icntl := fun k hk => getLsbD_keepLow_of_le hk v }
  | intsEn b hi => exact { hs with intsEn := fun he => absurd (extAluMac_of_wellFormed hw hi) (Bool.not_eq_true _ ▸ he) }
  | pushPc a hlt => exact { hs with pcStack := hlt }
  | popPc hp => exact { hs with pcStack := length_le_of_eq_cons hp hs.pcStack }
  | pushLoop e hlt => exact { hs with loopStack := hlt }
  | popLoop hp => exact { hs with loopStack := length_le_of_eq_cons hp hs.loopStack }
  | pushCntr c hlt => exact { hs with cntrStack := hlt }
  | popCntr hp => exact { hs with cntrStack := length_le_of_eq_cons hp hs.cntrStack }
  | pushSts hlt =>
    exact { hs with statusStack := hlt, savedImask := List.forall_mem_cons.2 ⟨hs.imask, hs.savedImask⟩ }
  | popSts hp =>
    obtain ⟨he, hrest⟩ := List.forall_mem_cons.1 (hp ▸ hs.savedImask)
    exact { hs with
      statusStack := length_le_of_eq_cons hp hs.statusStack
      imask := he
      savedImask := hrest }
  | storeDm a v => exact { hs with dm := Memory.wf_writeDm _ a v hs.dm }
  | storePm a v => exact { hs with pm := Memory.wf_writePm _ a v hs.pm }
  | markDirty a => exact { hs with pmDirty := pairwise_addToSet _ a hs.pmDirty }
  | popPending hi => exact { hs with }

theorem Touches.shapeInv {i : Instr} {s t : State} (h : Touches i s t) (hw : wellFormed s.cfg i = true)
    (hs : ShapeInv s) : ShapeInv t := by
  have hboth : t.cfg = s.cfg ∧ ShapeInv t :=
    h.keeps (P := fun u => u.cfg = s.cfg ∧ ShapeInv u)
      (fun _ _ hu ⟨hcfg, hinv⟩ => ⟨hu.cfg_eq.trans hcfg, hu.shapeInv (hcfg ▸ hw) hinv⟩) ⟨rfl, hs⟩
  exact hboth.2

/-! ## The delayed pop -/

/-- Only `reg = TOPPCSTACK` makes a pop pending (R396). -/
theorem Touch.pcPopPending_eq {i : Instr} (hi : ∀ r, i ≠ .regFromTop r) {s t : State} (h : Touch i s t) :
    t.pcPopPending = s.pcPopPending := by
  cases h with
  | free h => exact h.pcPopPending
  | popPending h => exact absurd h (hi _)
  | _ => rfl

/-- It completes away from a loop's end only, and leaves the PC stack it read the top of (R373, R396). -/
theorem pcStack_ne_nil_of_regFromTop {r : Reg} {s t : State} (h : exec (.regFromTop r) s = .next t) :
    t.pcStack ≠ [] := by
  obtain ⟨q, u, hg, hq, hu, ht⟩ := runSeq_inv ⟨true, true, false⟩ (readTopPc r) s t ((toOutcome_next _ _).1 h)
  have haway : atLoopEnd s = false := by
    by_contra hE
    obtain ⟨hforbidden, -⟩ := ((guard_ok_iff _ s).1 hg).2 (by simpa using hE)
    cases hforbidden
  rw [nextSeq_away s haway] at hq
  cases hq
  cases ht
  obtain ⟨a, rest, v, htop, hw, rfl⟩ := readTopPc_inv r s u hu
  simp [(writeReg_same r _ s v hw).pcStack, htop]

/-- Where no pop was pending before it, an instruction leaves one pending only with something to pop. -/
theorem pcStack_ne_nil_of_exec {i : Instr} {s t : State} (h : exec i s = .next t) (hs : s.pcPopPending = false)
    (ht : t.pcPopPending = true) : t.pcStack ≠ [] := by
  by_cases hi : ∃ r, i = .regFromTop r
  · obtain ⟨r, rfl⟩ := hi
    exact pcStack_ne_nil_of_regFromTop h
  · rw [not_exists] at hi
    have hkept : t.pcPopPending = false :=
      (exec_touches i s t h).keeps (P := fun u => u.pcPopPending = false)
        (fun _ _ hu hp => (hu.pcPopPending_eq hi).trans hp) hs
    cases hkept.symm.trans ht

/-! ## The step -/

theorem SameCore.stateInv {s t : State} (h : SameCore s t) (hs : StateInv s) : StateInv t := by
  obtain ⟨hshape, hpop⟩ := (stateInv_iff s).1 hs
  exact (stateInv_iff t).2 ⟨h.shapeInv hshape, by simpa only [h.pcPopPending, h.pcStack] using hpop⟩

theorem environmentStep_sameCore (s : State) : SameCore s (environmentStep s) := by
  obtain h | ⟨r, rest, -, h⟩ := environmentStep_cases s <;> rw [h] <;> constructor <;> rfl

theorem fetch_sameCore {s : State} {w : PWord} {t : State} (h : fetch s = .ok (w, t)) : SameCore s t :=
  memReadPm_sameCore (fetch_inv s w t h).2

/-- An interrupt is taken only with no pop pending (R462), and its entry mask is as wide as IMASK (R464). -/
theorem takeInterrupt_stateInv {q : IrqSource} {s t : State} (h : takeInterrupt q s = .ok t)
    (hp : s.pcPopPending = false) (hs : StateInv s) : StateInv t := by
  obtain ⟨hshape, -⟩ := (stateInv_iff s).1 hs
  obtain ⟨hpc, hsts, rfl⟩ := takeInterrupt_inv q s t h
  refine (stateInv_iff _).2 ⟨{ hshape with
    pcStack := hpc
    statusStack := hsts
    imask := fun k hk => getLsbD_keepLow_of_le hk _
    savedImask := List.forall_mem_cons.2 ⟨hshape.imask, hshape.savedImask⟩ }, fun ht => ?_⟩
  cases hp.symm.trans ht

theorem delayedPop_stateInv {s t : State} (h : delayedPop s = .ok t) (hs : ShapeInv s) : StateInv t := by
  unfold delayedPop at h
  split at h
  · cases h
  · next a u hu =>
    cases h
    obtain ⟨-, rfl⟩ := popPc_inv s a u hu
    have hlen : s.pcStack.tail.length ≤ 16 := by simpa using (Nat.sub_le _ 1).trans hs.pcStack
    exact (stateInv_iff _).2 ⟨{ hs with pcStack := hlen }, nofun⟩

/-- The instruction, and the delayed pop where one was pending. -/
theorem finishStep_stateInv {i : Instr} {s t : State} (h : finishStep s.pcPopPending (exec i s) = .next t)
    (hw : wellFormed s.cfg i = true) (hs : StateInv s) : StateInv t := by
  obtain ⟨hshape, -⟩ := (stateInv_iff s).1 hs
  unfold finishStep at h
  split at h
  · next u hu =>
    have hinv : ShapeInv u := (exec_touches i s u hu).shapeInv hw hshape
    split at h
    · exact delayedPop_stateInv ((toOutcome_next _ _).1 h) hinv
    · next hp =>
      cases h
      exact (stateInv_iff _).2 ⟨hinv, pcStack_ne_nil_of_exec hu (by simpa using hp)⟩
  · cases h
  · cases h

theorem step_stateInv {s t : State} (h : step s = .next t) (hs : StateInv s) : StateInv t := by
  have he : StateInv (environmentStep s) := (environmentStep_sameCore s).stateInv hs
  dsimp only [step] at h
  split at h
  · next q hq =>
    split at h
    · cases h
    · next hp => exact takeInterrupt_stateInv ((toOutcome_next _ _).1 h) (by simpa using hp) he
  · split at h
    · cases h
      exact he
    · split at h
      · cases h
      · next w u hf =>
        have hcore : SameCore (environmentStep s) u := fetch_sameCore hf
        split at h
        · cases h
        · next i hi =>
          rw [← hcore.pcPopPending] at h
          exact finishStep_stateInv h (decode_wellFormed _ w i hi) (hcore.stateInv he)

/-- Settles O54: each way of the step to a next state keeps the invariant. -/
theorem everyStepKeepsInv : Obligations.EveryStepKeepsInv := by
  unfold Obligations.EveryStepKeepsInv
  exact fun s t hs h => step_stateInv h hs

/-! ## The state after reset -/

/-- Settles O52: R58's values are those of `State.reset`. -/
theorem resetByTheSource : Obligations.ResetByTheSource := by
  unfold Obligations.ResetByTheSource
  exact ⟨rfl, rfl, rfl, rfl, rfl, rfl⟩

theorem stateInv_reset : StateInv State.reset := by
  refine (stateInv_iff _).2 ⟨{
    pm := rfl
    dm := rfl
    pmDirty := .nil
    pcStack := Nat.zero_le _
    loopStack := Nat.zero_le _
    cntrStack := Nat.zero_le _
    statusStack := Nat.zero_le _
    imask := fun k _ => BitVec.getLsbD_zero
    icntl := fun k _ => BitVec.getLsbD_zero
    savedImask := nofun
    intsEn := fun _ => rfl }, nofun⟩

/-- Settles O53: the spec's values at reset, and `stateInv_reset`. -/
theorem resetByTheSpecSatisfiesInv : Obligations.ResetByTheSpecSatisfiesInv := by
  unfold Obligations.ResetByTheSpecSatisfiesInv
  exact ⟨rfl, by decide, rfl, rfl, rfl, rfl, rfl, rfl, rfl, fun _ => rfl, fun _ => rfl, stateInv_reset⟩

end Sys2Proof.Machine
end

section
/-!
Which instruction changes which flag (R38), and the register bank that SEC_REG does not select (R28): both are read off
the elementary changes an instruction may make.
-/

namespace Sys2Proof.Machine

open Sys2Proof.Spec

/-! ## Flags -/

theorem Touch.astat_eq_of_not_writesFlag {i : Instr} {s t : State} (h : Touch i s t) {k : Nat}
    (hk : writesFlag i k = false) : t.astat.getLsbD k = s.astat.getLsbD k := by
  cases h with
  | astat ha => exact ha k hk
  | free h => rw [h.astat]
  | _ => rfl

/-- An instruction that completes leaves the flags it may not write. -/
theorem exec_astat_eq_of_not_writesFlag {i : Instr} {s t : State} (h : exec i s = .next t) {k : Nat}
    (hk : writesFlag i k = false) : t.astat.getLsbD k = s.astat.getLsbD k :=
  (exec_touches i s t h).keeps (P := fun u => u.astat.getLsbD k = s.astat.getLsbD k)
    (fun _ _ hu hs => (hu.astat_eq_of_not_writesFlag hk).trans hs) rfl

/-- Settles O56: each bit of ASTAT has its own writers, and no other instruction may write it. -/
theorem flagsHaveTheirWriters : Obligations.FlagsHaveTheirWriters := by
  unfold Obligations.FlagsHaveTheirWriters
  intro i s t h hload
  refine ⟨fun k hk hset => ?_, fun hset => ?_, fun hset => ?_, fun hset => ?_, fun hset => ?_⟩
  · have hbits : k ≠ 4 ∧ k ≠ 5 ∧ k ≠ 6 ∧ k ≠ 7 := by omega
    exact exec_astat_eq_of_not_writesFlag h (by simp [writesFlag, hload, hset, hbits])
  all_goals exact exec_astat_eq_of_not_writesFlag h (by simp [writesFlag, hload, hset])

/-! ## The other register bank -/

/-- Where the instruction does not change MSTAT, the selection and the other bank stay as they were (R28). -/
theorem Touch.otherBank {i : Instr} (hi : loadsMstat i = false) {s t : State} (h : Touch i s t) :
    t.mstat = s.mstat ∧ (if s.mstat.getLsbD 0 then t.prim = s.prim else t.sec = s.sec) := by
  cases h with
  | free h =>
    refine ⟨h.mstat, ?_⟩
    split
    · exact h.prim
    · exact h.sec
  | mstat m hm => cases hi.symm.trans hm
  | bank f _ =>
    refine ⟨rfl, ?_⟩
    split
    · next hsel => exact if_pos hsel
    · next hsel => exact if_neg hsel
  | _ => exact ⟨rfl, by split <;> rfl⟩

/-- Where it does, it changes no register of either bank. -/
theorem Touch.banks_eq {i : Instr} (hi : loadsMstat i = true) {s t : State} (h : Touch i s t) :
    t.prim = s.prim ∧ t.sec = s.sec := by
  cases h with
  | free h => exact ⟨h.prim, h.sec⟩
  | bank f hb => cases hb.symm.trans hi
  | _ => exact ⟨rfl, rfl⟩

theorem exec_banks_eq {i : Instr} (hi : loadsMstat i = true) {s t : State} (h : exec i s = .next t) :
    t.prim = s.prim ∧ t.sec = s.sec :=
  (exec_touches i s t h).keeps (P := fun u => u.prim = s.prim ∧ u.sec = s.sec)
    (fun _ _ hu ⟨hprim, hsec⟩ => ⟨(hu.banks_eq hi).1.trans hprim, (hu.banks_eq hi).2.trans hsec⟩) ⟨rfl, rfl⟩

theorem exec_otherBank {i : Instr} (hi : loadsMstat i = false) {s t : State} (h : exec i s = .next t) :
    t.mstat = s.mstat ∧ (if s.mstat.getLsbD 0 then t.prim = s.prim else t.sec = s.sec) := by
  refine (exec_touches i s t h).keeps
    (P := fun u => u.mstat = s.mstat ∧ (if s.mstat.getLsbD 0 then u.prim = s.prim else u.sec = s.sec))
    (fun u v hv ⟨hmstat, hbank⟩ => ?_) ⟨rfl, by split <;> rfl⟩
  obtain ⟨hmstat', hbank'⟩ := hv.otherBank hi
  rw [hmstat] at hmstat' hbank'
  refine ⟨hmstat', ?_⟩
  cases hsel : s.mstat.getLsbD 0 <;> simp only [hsel, Bool.false_eq_true, ↓reduceIte] at hbank hbank' ⊢ <;>
    exact hbank'.trans hbank

/-- Settles O57: an instruction changes MSTAT or a bank, never both. -/
theorem otherBankIsUntouched : Obligations.OtherBankIsUntouched := by
  unfold Obligations.OtherBankIsUntouched
  intro i s t h
  cases hi : loadsMstat i
  · exact (exec_otherBank hi h).2
  · obtain ⟨hprim, hsec⟩ := exec_banks_eq hi h
    split
    · exact hprim
    · exact hsec

end Sys2Proof.Machine
end

section
/-!
How an instruction completes, in the statements' terms (`Runs`, `RunsPlain`, `advance`): an effect that leaves the pc and
the two stacks of the sequencer runs and goes on. The instructions of the pins, the modes, the interrupt enable, the idle
state and the flag-in transfers follow, and the environment's step.
-/

namespace Sys2Proof.Machine

open Sys2Proof.Spec

/-! ## Conditions in the statements' terms -/

/-- The tests of R160 are those of the statements. -/
theorem condHolds_eq_condTrue (c : Cond) (s : State) : condHolds c s = condTrue c s := by
  cases c with
  | gt =>
    simp only [condHolds, condTrue, azOf, anOf, avOf]
    cases s.astat.getLsbD 0 <;> cases s.astat.getLsbD 1 <;> cases s.astat.getLsbD 2 <;> rfl
  | ge =>
    simp only [condHolds, condTrue, anOf, avOf]
    cases s.astat.getLsbD 1 <;> cases s.astat.getLsbD 2 <;> rfl
  | notCe =>
    have hone : s.cntr = 1#14 ↔ s.cntr.toNat = 1 := BitVec.toNat_inj.symm
    simp [condHolds, condTrue, bne, Bool.beq_eq_decide_eq, hone]
  | eq | ne | le | lt | av | notAv | ac | notAc | neg | pos | mv | notMv | always => rfl

/-- A bank update replaces the selected bank by the function's value. -/
theorem mapBank_eq_setActive (f : Bank → Bank) (s : State) : s.mapBank f = setActive (f (active s)) s := by
  unfold State.mapBank setActive active secRegOf
  cases s.mstat.getLsbD 0 <;> rfl

/-- A tested condition leaves what the units and the sequencer read but for the counter (R162). -/
structure SameButCounter (s t : State) : Prop where
  pc : t.pc = s.pc
  loopStack : t.loopStack = s.loopStack
  pcStack : t.pcStack = s.pcStack
  astat : t.astat = s.astat
  mstat : t.mstat = s.mstat
  draws : t.draws = s.draws

theorem sameButCounter_tested (c : Cond) (s : State) : SameButCounter s (tested c s) := by
  obtain h | ⟨-, h⟩ := tested_cases c s <;> rw [h]
  · constructor <;> rfl
  · exact ⟨ceTick_pc s, ceTick_loopStack s, ceTick_pcStack s, ceTick_astat s, ceTick_mstat s, ceTick_draws s⟩

/-- An update that leaves what the sequencer reads: the pc, the loop stack and the PC stack. -/
def KeepsSequencer (f : State → State) : Prop :=
  ∀ s, (f s).pc = s.pc ∧ (f s).loopStack = s.loopStack ∧ (f s).pcStack = s.pcStack

theorem keepsSequencer_tested (c : Cond) : KeepsSequencer (tested c) := fun s =>
  have h := sameButCounter_tested c s
  ⟨h.pc, h.loopStack, h.pcStack⟩

/-! ## Instructions that complete -/

/-- An instruction whose effect completes and leaves the sequencer's state runs and goes on (R310, R372). -/
theorem runPlain_next {g : Guard} {eff : State → Except Fault State} {s t : State} (hg : hazards g s = .ok ())
    (ha : CanAdvance s) (he : eff s = .ok t) (ht : t.pc = s.pc ∧ t.loopStack = s.loopStack ∧ t.pcStack = s.pcStack) :
    runPlain g eff s = .next (advance s t) := by
  obtain ⟨hpc, hloop, hstack⟩ := ht
  exact (toOutcome_next _ _).2 (runSeq_ok g eff s t hg ha he hpc hloop hstack)

/-- An unconditional one (R372). -/
theorem runUpdate_next {f : State → State} (hf : KeepsSequencer f) {s : State} (ha : CanAdvance s) :
    runPlain .plain (fun t => .ok (f t)) s = .next (advance s (f s)) :=
  runPlain_next (guard_plain s ha) ha rfl (hf s)

/-- A conditional one (R200, R372). -/
theorem runCondUpdate_next {f : State → State} (hf : KeepsSequencer f) {c : Cond} {s : State} (ha : CanAdvance s)
    (hc : CanTest c s) :
    runPlain (.cond c) (ifCond c fun t => .ok (f t)) s =
      .next (advance s (if condTrue c s then f (tested c s) else tested c s)) := by
  refine runPlain_next (guard_cond c s ha hc) ha ?_ ?_
  · rw [ifCond_ok c _ s fun h => (hc h).1, condHolds_eq_condTrue]
    split <;> rfl
  · obtain ⟨hpc, hloop, hstack⟩ := keepsSequencer_tested c s
    obtain ⟨hpc', hloop', hstack'⟩ := hf (tested c s)
    split
    · exact ⟨hpc'.trans hpc, hloop'.trans hloop, hstack'.trans hstack⟩
    · exact ⟨hpc, hloop, hstack⟩

/-- An instruction whose effect is a fault stops with it where it may execute at all (R459). -/
theorem runPlain_fault {g : Guard} {eff : State → Except Fault State} {s : State} {e : Fault}
    (hg : hazards g s = .ok ()) (ha : CanAdvance s) (he : eff s = .error e) : runPlain g eff s = .fault e := by
  have hq : ∃ q, nextSeq s = .ok q := by
    cases hE : atLoopEnd s
    · exact ⟨_, nextSeq_away s hE⟩
    · exact ⟨_, nextSeq_end s hE ha⟩
  obtain ⟨q, hq⟩ := hq
  simp [runPlain, runSeq, hg, hq, he, toOutcome]

/-! ## Pins (R358) -/

theorem driveFl2_eq (op : PinOp) (s : State) :
    driveFl2 op s = { s with fl2 := newLevel op s.fl2, events := pinEvents op .fl2 s.fl2 ++ s.events } := by
  cases op <;> rfl

theorem driveFl1_eq (op : PinOp) (s : State) :
    driveFl1 op s = { s with fl1 := newLevel op s.fl1, events := pinEvents op .fl1 s.fl1 ++ s.events } := by
  cases op <;> rfl

theorem driveFl0_eq (op : PinOp) (s : State) :
    driveFl0 op s = { s with fl0 := newLevel op s.fl0, events := pinEvents op .fl0 s.fl0 ++ s.events } := by
  cases op <;> rfl

theorem driveFlagOut_eq (op : PinOp) (s : State) :
    driveFlagOut op s =
      { s with flagOut := newLevel op s.flagOut, events := pinEvents op .flagOut s.flagOut ++ s.events } := by
  cases op <;> rfl

/-- The four pins in the order of R358. -/
theorem drivePins_eq (f2 f1 f0 fo : PinOp) (s : State) :
    drivePins f2 f1 f0 fo s =
      { s with
        fl2 := newLevel f2 s.fl2
        fl1 := newLevel f1 s.fl1
        fl0 := newLevel f0 s.fl0
        flagOut := newLevel fo s.flagOut
        events := pinEvents fo .flagOut s.flagOut ++ (pinEvents f0 .fl0 s.fl0 ++
          (pinEvents f1 .fl1 s.fl1 ++ (pinEvents f2 .fl2 s.fl2 ++ s.events))) } := by
  simp only [drivePins, driveFl2_eq, driveFl1_eq, driveFl0_eq, driveFlagOut_eq]

/-- Settles O30: the pins are driven one after the other, each by its own field. -/
theorem flagOutDrivesThePins : Obligations.FlagOutDrivesThePins := by
  unfold Obligations.FlagOutDrivesThePins
  intro f2 f1 f0 fo c s ha hc
  beta_reduce
  rw [← drivePins_eq]
  refine runCondUpdate_next (fun t => ?_) ha hc
  rw [drivePins_eq]
  exact ⟨rfl, rfl, rfl⟩

/-! ## Modes and the interrupt enable -/

/-- One field of mode control sets its own bit of MSTAT (R400). -/
theorem getLsbD_applyMode_same (op : ModeOp) {n : Nat} (hn : n < 7) (m : BitVec 7) :
    (applyMode op n m).getLsbD n = newMode op (m.getLsbD n) := by
  cases op with
  | keep => rfl
  | disable | enable => exact (getLsbD_setBitTo m n n _ hn).trans (if_pos rfl)

/-- It leaves the others. -/
theorem getLsbD_applyMode_other (op : ModeOp) {n k : Nat} (hn : n < 7) (hk : k ≠ n) (m : BitVec 7) :
    (applyMode op n m).getLsbD k = m.getLsbD k := by
  cases op with
  | keep => rfl
  | disable | enable => exact (getLsbD_setBitTo m n k _ hn).trans (if_neg hk)

theorem applyModes_eq (ti mm as ol br sr gm : ModeOp) (m : BitVec 7) :
    applyModes ti mm as ol br sr gm m =
      BitVec.ofBool (newMode gm (m.getLsbD 6)) ++ BitVec.ofBool (newMode ti (m.getLsbD 5)) ++
      BitVec.ofBool (newMode mm (m.getLsbD 4)) ++ BitVec.ofBool (newMode as (m.getLsbD 3)) ++
      BitVec.ofBool (newMode ol (m.getLsbD 2)) ++ BitVec.ofBool (newMode br (m.getLsbD 1)) ++
      BitVec.ofBool (newMode sr (m.getLsbD 0)) := by
  apply BitVec.eq_of_getLsbD_eq
  intro k hk
  interval_cases k <;>
    simp (disch := decide) only [applyModes, getLsbD_applyMode_same, getLsbD_applyMode_other,
      BitVec.getLsbD_append, BitVec.getLsbD_ofBool] <;> rfl

/-- Settles O40: the seven fields of mode control are MSTAT's seven bits. -/
theorem modeControlSetsModes : Obligations.ModeControlSetsModes := by
  unfold Obligations.ModeControlSetsModes
  intro ti mm as ol br sr gm s ha
  beta_reduce
  rw [← applyModes_eq]
  exact runUpdate_next (f := fun t => { t with mstat := applyModes ti mm as ol br sr gm t.mstat })
    (fun _ => ⟨rfl, rfl, rfl⟩) ha

/-- The words of the interrupt enable (R148), with the part's own check (R180). -/
theorem decode_interruptEnable (c : Config) :
    decode c 0x040060 = (if c.extAluMac then some .enaInts else none) ∧
      decode c 0x040040 = (if c.extAluMac then some .disInts else none) := by
  have hena : decodeRow c 0x040060 = some .enaInts := rfl
  have hdis : decodeRow c 0x040040 = some .disInts := rfl
  simp only [decode, hena, hdis, Option.filter_some, wellFormed]
  exact ⟨rfl, rfl⟩

/-- Settles O42: the two words, and the one bit they write. -/
theorem interruptEnableAndDisable : Obligations.InterruptEnableAndDisable := by
  unfold Obligations.InterruptEnableAndDisable
  refine ⟨decode_interruptEnable, fun s ha => ?_, fun s ha => ?_⟩
  · exact runUpdate_next (f := fun t => { t with intsEn := true }) (fun _ => ⟨rfl, rfl, rfl⟩) ha
  · exact runUpdate_next (f := fun t => { t with intsEn := false }) (fun _ => ⟨rfl, rfl, rfl⟩) ha

/-! ## Idle (R380, R381) -/

/-- Away from a loop's end an instruction of its own effect alone runs, and the pc goes on. -/
theorem runPlain_away {g : Guard} {eff : State → Except Fault State} {s t : State} (hE : atLoopEnd s = false)
    (hg : s.pcPopPending = true → g.pcStack = false) (he : eff s = .ok t) :
    runPlain g eff s = .next { t with pc := t.pc + 1 } :=
  (toOutcome_next _ _).2 (runSeq_away g eff s t hE hg he)

/-- Settles O34: both forms enter the idle state, each with its divisor. -/
theorem idleWaits : Obligations.IdleWaits := by
  unfold Obligations.IdleWaits
  intro s hE
  have henter (d : IdleDiv) : runPlain ⟨false, true, false⟩ (fun t => .ok (enterIdle d t)) s =
      .next { s with pc := s.pc + 1, idle := true, idleDiv := d } :=
    runPlain_away (t := enterIdle d s) hE (fun _ => rfl) rfl
  refine ⟨henter .d1, fun n => ?_⟩
  cases n <;> exact henter _

/-! ## JUMP and CALL on FLAG IN (R356) -/

/-- The level of the pin that the next test draws (R52). -/
def pinLevelDrawn (s : State) : Bool := (drawnValue s).getLsbD 0

/-- What the test leaves: the level is latched, and a free value counted. -/
def flagInTested (s : State) : State := { s with draws := s.draws + 1, fiLatch := pinLevelDrawn s }

theorem testFlagIn_eq (on : Bool) (s : State) :
    testFlagIn on s = .ok (decide (pinLevelDrawn s = on), flagInTested s) := by
  rw [← Bool.beq_eq_decide_eq]
  rfl

section
variable {g : Guard} {on : Bool} {take : State → Except Fault State} {s : State}

/-- A transfer on FLAG IN away from a loop's end: taken on the level asked for, else the pc goes on. -/
theorem runBranch_flagIn_away (hE : atLoopEnd s = false) (hg : s.pcPopPending = true → g.pcStack = false) :
    runBranch g (testFlagIn on) take s =
      if pinLevelDrawn s = on then toOutcome (take (flagInTested s))
      else .next { flagInTested s with pc := s.pc + 1 } := by
  have htest := testFlagIn_eq on s
  split
  · next hlevel =>
    rw [decide_eq_true hlevel] at htest
    rw [runBranch, runTransfer_taken g _ take s _ (guard_away g s hE hg) htest hE]
  · next hlevel =>
    rw [decide_eq_false hlevel] at htest
    rw [runBranch, runTransfer_not g _ take s _ htest,
      runSeq_away g (fun _ => .ok (flagInTested s)) s _ hE hg rfl]
    rfl

/-- The same at a loop's end: taken it is the fault of R373 item 1. -/
theorem runBranch_flagIn_end (hE : atLoopEnd s = true) (ha : CanAdvance s) (hg : hazards g s = .ok ()) :
    runBranch g (testFlagIn on) take s =
      if pinLevelDrawn s = on then .fault .loopEnd else .next (advance s (flagInTested s)) := by
  have htest := testFlagIn_eq on s
  split
  · next hlevel =>
    rw [decide_eq_true hlevel] at htest
    rw [runBranch, runTransfer_taken_end g _ take s _ hg htest hE]
    rfl
  · next hlevel =>
    rw [decide_eq_false hlevel] at htest
    rw [runBranch, runTransfer_not g _ take s _ htest,
      runSeq_ok g (fun _ => .ok (flagInTested s)) s _ hg ha rfl rfl rfl rfl]
    rfl

end

theorem takeCall_of_lt (a : Addr) (s : State) (h : s.pcStack.length < 16) :
    takeCall a s = .ok { s with pc := a, pcStack := (s.pc + 1) :: s.pcStack } := by
  simp [takeCall, pushPc, pcStackDepth, Nat.not_le.2 h]

theorem takeCall_of_full (a : Addr) (s : State) (h : 16 ≤ s.pcStack.length) :
    takeCall a s = .error (.stackOverflow .pc) := by
  simp [takeCall, pushPc, pcStackDepth, h]

/-- At a loop's end where an instruction may execute, one that only uses the PC stack may too: no pop is pending. -/
theorem guard_of_no_pop (p : Bool) {s : State} (hp : s.pcPopPending = false) : hazards ⟨p, false, false⟩ s = .ok () :=
  (guard_ok_iff _ s).2 ⟨fun h => by simp [hp] at h, fun _ => ⟨rfl, nofun⟩⟩

/-- Settles O29: the level is the drawn one, and it decides. -/
theorem flagInDecides : Obligations.FlagInDecides := by
  unfold Obligations.FlagInDecides
  intro on a s
  refine ⟨pinLevelDrawn s, fun hE => ?_, fun hE hp hlt => ?_, fun hE hp hfull => ?_, fun hE ha => ?_⟩
  · refine (runBranch_flagIn_away hE fun _ => rfl).trans ?_
    split <;> rfl
  · refine (runBranch_flagIn_away hE fun h => absurd h (by simp [hp])).trans ?_
    rw [takeCall_of_lt a (flagInTested s) hlt]
    split <;> rfl
  · refine (runBranch_flagIn_away hE fun h => absurd h (by simp [hp])).trans ?_
    rw [takeCall_of_full a (flagInTested s) hfull]
    rfl
  · obtain ⟨hp, -⟩ := ha hE
    exact ⟨runBranch_flagIn_end hE ha (guard_of_no_pop false hp), runBranch_flagIn_end hE ha (guard_of_no_pop true hp)⟩

/-! ## The environment's step (R462, R471) -/

/-- The latches that the environment may set: those of a source of the table, the timer's while TIMER is 1. -/
theorem getLsbD_latchable (m : BitVec 7) (l : List IrqSource) (k : Fin 16) :
    (latchable m l).getLsbD k.val = true ↔ ∃ q ∈ l, q.latch = k ∧ (q.isTimer = true → m.getLsbD 5 = true) := by
  induction l with
  | nil => simp [latchable]
  | cons q l ih =>
    have hallowed : (!q.isTimer || timerOf m) = true ↔ (q.isTimer = true → m.getLsbD 5 = true) := by
      cases q.isTimer <;> simp [timerOf]
    have hown : (BitVec.twoPow 16 q.latch.val).getLsbD k.val = true ↔ q.latch = k := by
      simp [Fin.ext_iff, eq_comm]
    unfold latchable
    split
    · next h =>
      have hyes : (q.latch = k ∧ (q.isTimer = true → m.getLsbD 5 = true)) ↔ q.latch = k := and_iff_left (hallowed.1 h)
      rw [BitVec.getLsbD_or, Bool.or_eq_true, hown, ih, List.exists_mem_cons_iff, hyes]
    · next h =>
      have hno : ¬ (q.isTimer = true → m.getLsbD 5 = true) := fun hq => h (hallowed.2 hq)
      simp only [ih, List.exists_mem_cons_iff, hno, and_false, false_or]

/-- Settles O48: a request reaches the latches that `latchable` allows. -/
theorem environmentRaisesLatches : Obligations.EnvironmentRaisesLatches := by
  unfold Obligations.EnvironmentRaisesLatches
  intro s
  refine ⟨fun h => by simp [environmentStep, h], fun r rest h => ?_⟩
  refine ⟨s.irqPending ||| (r &&& latchable s.mstat s.cfg.irqTable), by simp [environmentStep, h], fun k => ?_⟩
  simp only [BitVec.getLsbD_or, BitVec.getLsbD_and, Bool.or_eq_true, Bool.and_eq_true, getLsbD_latchable]

end Sys2Proof.Machine
end

section
/-!
`reg = reg` (R313): the value of every source and the effect on every destination, as the statements tell them.
-/

namespace Sys2Proof.Machine

open Sys2Proof.Spec

/-! ## Sources -/

/-- A data register as a source: SE and MR2 are signed (R26, R57). -/
theorem readDreg_eq_dregVal (d : Dreg) (s : State) : readDreg d s = dregVal d s := by
  cases d <;> rfl

/-- SSTAT put together as a number (R43). -/
theorem sstat_eq_sstatVal (s : State) : (sstat s).setWidth 16 = sstatVal s := by
  unfold sstat sstatVal
  simp only [← List.isEmpty_iff]
  generalize s.pcStack.isEmpty = pse
  generalize s.cntrStack.isEmpty = cse
  generalize s.statusStack.isEmpty = sse
  generalize s.loopStack.isEmpty = lse
  generalize s.pso = pso
  generalize s.cso = cso
  generalize s.sso = sso
  generalize s.lso = lso
  revert pse cse sse lse pso cso sso lso
  decide

/-- A source that may be read gives its value (R311, R318, R472). -/
theorem readSrc_ok_of_canRead {r : SrcReg} {s : State} (h : CanRead r s) :
    ∃ v u, readSrc r s = .ok (v, u) ∧ SrcReads r s v u := by
  cases r with
  | sstat => exact ⟨_, s, rfl, sstat_eq_sstatVal s, rfl⟩
  | reg r =>
    cases r with
    | dreg d => exact ⟨_, s, rfl, readDreg_eq_dregVal d s, rfl⟩
    | cntr =>
      have hread : cntrReadable s = true := by
        obtain h | h := h rfl <;> simp [cntrReadable, h]
      exact ⟨_, s, if_pos hread, (BitVec.ofNat_toNat _ _).symm, rfl⟩
    | port p => exact ⟨_, _, rfl, rfl, rfl⟩
    | i | l | astat | mstat | px => exact ⟨_, s, rfl, (BitVec.ofNat_toNat _ _).symm, rfl⟩
    | m | sb | imask | icntl => exact ⟨_, s, rfl, rfl, rfl⟩

/-! ## Destinations -/

/-- The low bits of a value, in the machine's and in the statements' words. -/
theorem setWidth_eq_extractLsb' {n : Nat} (w : Nat) (v : BitVec n) : v.setWidth w = v.extractLsb' 0 w := by
  apply BitVec.eq_of_getLsbD_eq
  intro k hk
  simp [hk]

/-- A data register as a destination: narrow registers keep the low bits, MR1 extends its sign into MR2 (R23, R311). -/
theorem writeDreg_eq_putDreg (d : Dreg) (v : Word) (s : State) : writeDreg d v s = putDreg d v s := by
  unfold writeDreg putDreg
  rw [mapBank_eq_setActive]
  cases d with
  | mr1 => simp only [bankWithDreg, BitVec.msb_eq_toInt, decide_eq_true_eq]
  | se | mr2 => simp only [bankWithDreg, setWidth_eq_extractLsb']
  | ax0 | ax1 | mx0 | mx1 | ay0 | ay1 | my0 | my1 | si | ar | mr0 | sr0 | sr1 => rfl

theorem lowBits_keepLow (n : Nat) (v : BitVec 16) : LowBits n v (keepLow n v) := fun k _ => getLsbD_keepLow n k v

/-- The latches after the clear bits of an IFC write (R463). -/
theorem getLsbD_ifcClear (v : BitVec 16) (l : List IrqSource) (p : BitVec 16) (k : Fin 16) :
    (ifcClear v l p).getLsbD k.val = true ↔
      p.getLsbD k.val = true ∧
        ¬ ∃ q ∈ l, q.latch = k ∧ ∃ f, q.clearBit = some f ∧ v.getLsbD f.val = true := by
  induction l generalizing p with
  | nil => simp [ifcClear]
  | cons q l ih =>
    have hbit : (q.clearBit.any fun b => v.getLsbD b.val) = true ↔
        ∃ f, q.clearBit = some f ∧ v.getLsbD f.val = true := Option.any_eq_true _ _
    unfold ifcClear
    rw [ih, List.exists_mem_cons_iff]
    split
    · next h =>
      have hown : (setBitTo p q.latch.val false).getLsbD k.val = true ↔ ¬ q.latch = k ∧ p.getLsbD k.val = true := by
        rw [getLsbD_setBitTo _ _ _ _ q.latch.isLt, Fin.ext_iff, eq_comm (a := q.latch.val)]
        split <;> simp [*]
      rw [hown, and_iff_left (hbit.1 h), not_or, and_assoc, and_left_comm]
    · next h => rw [iff_false_intro (mt hbit.2 h), and_false, false_or]

/-- And after its force bits. -/
theorem getLsbD_ifcForce (v : BitVec 16) (l : List IrqSource) (p : BitVec 16) (k : Fin 16) :
    (ifcForce v l p).getLsbD k.val = true ↔
      (∃ q ∈ l, q.latch = k ∧ ∃ f, q.forceBit = some f ∧ v.getLsbD f.val = true) ∨ p.getLsbD k.val = true := by
  induction l generalizing p with
  | nil => simp [ifcForce]
  | cons q l ih =>
    have hbit : (q.forceBit.any fun b => v.getLsbD b.val) = true ↔
        ∃ f, q.forceBit = some f ∧ v.getLsbD f.val = true := Option.any_eq_true _ _
    unfold ifcForce
    rw [ih, List.exists_mem_cons_iff]
    split
    · next h =>
      have hown : (setBitTo p q.latch.val true).getLsbD k.val = true ↔ q.latch = k ∨ p.getLsbD k.val = true := by
        rw [getLsbD_setBitTo _ _ _ _ q.latch.isLt, Fin.ext_iff, eq_comm (a := q.latch.val)]
        split <;> simp [*]
      rw [hown, and_iff_left (hbit.1 h), or_left_comm, or_assoc]
    · next h => rw [iff_false_intro (mt hbit.2 h), and_false, false_or]

/-- A write to IFC is an event, and clears latches before it forces them (R463, log 8). -/
theorem dstWrites_writeIfc (v : Word) (s : State) : DstWrites .ifc v s (writeIfc v s) :=
  ⟨keepLow s.cfg.ifcBits v, _, lowBits_keepLow _ v,
    fun k => (getLsbD_ifcForce _ _ _ k).trans (or_congr_right (getLsbD_ifcClear _ _ _ k)), rfl⟩

theorem writeCntr_ok {v : Addr} {s : State} (h : s.cntrValid = true → s.cntrStack.length < s.cfg.cntrStackDepth) :
    writeCntr v s = .ok { s with
      cntr := v, cntrValid := true, cntrStack := if s.cntrValid then s.cntr :: s.cntrStack else s.cntrStack } := by
  unfold writeCntr
  split
  · next hv => rw [if_neg (Nat.not_le.2 (h hv))]
  · rfl

/-- A destination whose write nothing stops takes the value (R311, R314, R318, R463). -/
theorem writeDst_ok_of_room {d : DstReg} {s : State}
    (h : d = .reg .cntr → s.cntrValid = true → s.cntrStack.length < s.cfg.cntrStackDepth) (v : Word) :
    ∃ t, writeDst d v s = .ok t ∧ DstWrites d v s t := by
  cases d with
  | owrcntr => exact ⟨_, rfl, by rw [setWidth_eq_extractLsb']; rfl⟩
  | ifc => exact ⟨_, rfl, dstWrites_writeIfc v s⟩
  | reg r =>
    cases r with
    | dreg d => exact ⟨_, rfl, writeDreg_eq_putDreg d v s⟩
    | cntr => exact ⟨_, writeCntr_ok (h rfl), by rw [setWidth_eq_extractLsb']; rfl⟩
    | imask => exact ⟨_, rfl, _, lowBits_keepLow _ v, rfl⟩
    | icntl => exact ⟨_, rfl, _, lowBits_keepLow _ v, rfl⟩
    | sb => exact ⟨_, rfl, by rw [mapBank_eq_setActive, setWidth_eq_extractLsb']; rfl⟩
    | i | m | l | astat | mstat | px => exact ⟨_, rfl, by rw [setWidth_eq_extractLsb']; rfl⟩
    | port p => exact ⟨_, rfl, rfl⟩

/-! ## The move -/

/-- Where a write to the destination is allowed, the move has no hazard (R373 item 4). -/
theorem hazards_moveGuard {d : DstReg} {s : State} (ha : CanAdvance s) (hw : CanWrite d s) :
    hazards (moveGuard d) s = .ok () := by
  refine guard_counter s ha (writesCounter d) fun hd => hw.2 ?_
  unfold writesCounter at hd
  split at hd
  · exact .inl rfl
  · exact .inr rfl
  · cases hd

/-- A move that reads an expired CNTR is a fault (R318). -/
theorem exec_regMove_expired {d : DstReg} {s : State} (ha : CanAdvance s) (hw : CanWrite d s)
    (hread : cntrReadable s = false) : exec (.regMove d (.reg .cntr)) s = .fault .uninitCntr := by
  refine runPlain_fault (hazards_moveGuard ha hw) ha ?_
  simp [moveReg, readSrc, readReg_cntr_expired s hread]

/-- The read leaves the counter, its stack, and what the sequencer reads (R311). -/
theorem readSrc_keeps_counter {r : SrcReg} {s : State} {v : Word} {u : State} (h : readSrc r s = .ok (v, u)) :
    (u.cntrValid = s.cntrValid ∧ u.cntrStack = s.cntrStack ∧ u.cfg = s.cfg) ∧
      u.pc = s.pc ∧ u.loopStack = s.loopStack ∧ u.pcStack = s.pcStack := by
  obtain ⟨-, rfl | ⟨p, -, rfl⟩⟩ := readSrc_inv r s v u h <;> exact ⟨⟨rfl, rfl, rfl⟩, rfl, rfl, rfl⟩

/-- Settles O18: the read, then the write, of any pair of registers. -/
theorem registerMoveCopies : Obligations.RegisterMoveCopies := by
  unfold Obligations.RegisterMoveCopies
  refine ⟨fun d r s ha hr hw => ?_, fun d s ha hw hvalid hexp => ?_⟩
  · obtain ⟨v, u, hread, hsrc⟩ := readSrc_ok_of_canRead hr
    obtain ⟨⟨hvalid, hstack, hcfg⟩, hpc, hloop, hpcStack⟩ := readSrc_keeps_counter hread
    obtain ⟨t, hwrite, hdst⟩ := writeDst_ok_of_room (d := d) (s := u)
      (by rw [hvalid, hstack, hcfg]; exact hw.1) v
    have hsame : SameOutside u t := writeDst_same d v u t hwrite
    refine ⟨v, u, t, hsrc, hdst, runPlain_next (hazards_moveGuard ha hw) ha ?_ ?_⟩
    · simp only [moveReg, hread, hwrite]
    · exact ⟨hsame.pc.trans hpc, hsame.loopStack.trans hloop, hsame.pcStack.trans hpcStack⟩
  · exact exec_regMove_expired ha hw (by simp [cntrReadable, hvalid, hexp])

end Sys2Proof.Machine
end

section
/-!
PASS constant (R221): the adder in the statements' integers (R201), the flags of an ALU result bit by bit (R202), and the
commit in the statements' terms.
-/

namespace Sys2Proof.Machine

open Sys2Proof.Spec

/-! ## The adder (R201) -/

theorem word_toInt_eq (x : Word) : x.toInt = (x.toNat : Int) - (if x.msb then 65536 else 0) := by
  rw [BitVec.toInt_eq_msb_cond]
  split <;> simp

theorem word_msb_eq (x : Word) : x.msb = decide (32768 ≤ x.toNat) := by
  rw [BitVec.msb_eq_decide]

/-- The adder's result, overflow and carry are those of the integer sum. -/
theorem aluAdd_eq_sumOut (a b : Word) (c : Bool) : aluAdd a b c = sumOut a b c := by
  have ha := a.isLt
  have hb := b.isLt
  have hc : c.toNat = if c then 1 else 0 := by cases c <;> rfl
  simp only [aluAdd, sumOut, AluOut.mk.injEq, true_and, and_true]
  refine ⟨?_, by rw [decide_eq_decide]; omega⟩
  rw [Bool.eq_iff_iff]
  simp only [word_toInt_eq, word_msb_eq, BitVec.toNat_ofNat, Bool.and_eq_true, beq_iff_eq, bne_iff_ne, ne_eq,
    decide_eq_decide, decide_eq_true_eq, hc]
  split <;> split <;> split <;> omega

/-- Adding the complement and a carry is the difference, less 1 without the carry (R201). -/
theorem aluAdd_not_eq_diffOut (a b : Word) (c : Bool) : aluAdd a (~~~b) c = diffOut a b c := by
  rw [aluAdd_eq_sumOut]
  have hb := b.isLt
  have hnot : (~~~b).toNat = 65535 - b.toNat := by simp
  have hz : a.toInt + (~~~b).toInt + (if c then 1 else 0) = a.toInt - b.toInt - ((if c then 0 else 1 : Nat) : Int) := by
    rw [word_toInt_eq (~~~b), word_toInt_eq b, word_msb_eq, word_msb_eq, hnot]
    simp only [decide_eq_true_eq]
    split <;> split <;> split <;> omega
  have hc : c.toNat + (if c then 0 else 1) = 1 := by cases c <;> rfl
  simp only [sumOut, diffOut, AluOut.mk.injEq, hz, true_and, and_true]
  refine ⟨?_, by rw [decide_eq_decide]; omega⟩
  apply BitVec.eq_of_toNat_eq
  rw [← hz, word_toInt_eq a, word_toInt_eq (~~~b), hnot, BitVec.toNat_ofNat, BitVec.toNat_ofInt]
  have hcint : (if c then 1 else 0 : Int) = c.toNat := by cases c <;> rfl
  rw [hcint]
  split <;> split <;> omega

/-- The three functions of PASS constant (R221) read neither xop nor the carry. -/
theorem alu_pass_eq_aluOut {f : AluFn} (hf : f = .passY ∨ f = .incY ∨ f = .decY) (y : Word) (c : Bool) :
    alu f 0 y c = aluOut f 0 y false := by
  obtain rfl | rfl | rfl := hf
  · rfl
  · exact aluAdd_eq_sumOut y 1 false
  · have hz : y.toInt - (0 : Word).toInt - (1 : Nat) = y.toInt - (1 : Word).toInt - (0 : Nat) := by
      rw [show (0 : Word).toInt = 0 from rfl, show (1 : Word).toInt = 1 from rfl]
      omega
    have hdec : diffOut y 0 false = diffOut y 1 true := by
      simp only [diffOut, Bool.false_eq_true, ↓reduceIte, hz]
      rfl
    exact (aluAdd_not_eq_diffOut y 0 false).trans hdec

theorem konstVal_eq_constVal (k : Konst) : konstVal k = constVal k := by
  obtain ⟨n, inv⟩ := k
  revert n inv
  decide

/-! ## The commit (R202, R203) -/

/-- ASTAT told bit by bit (R36). -/
theorem getLsbD_astatOf (az an av ac as aq mv ss : Bool) {k : Nat} (hk : k < 8) :
    (astatOf az an av ac as aq mv ss).getLsbD k = [az, an, av, ac, as, aq, mv, ss].getD k false := by
  unfold astatOf
  interval_cases k <;> simp only [BitVec.getLsbD_append, BitVec.getLsbD_ofBool] <;> rfl

/-- AV stays set in latch mode (R39). -/
theorem latchedAv_eq (m : BitVec 7) (f : BitVec 8) (ov : Bool) :
    latchedAv m f ov = (ov || (m.getLsbD 2 && f.getLsbD 2)) := by
  unfold latchedAv avLatchOf avOf
  cases m.getLsbD 2 <;> simp [Bool.or_comm]

/-- The flags of an ALU result (R202). -/
theorem aluAstat_eq_aluFlags (o : AluOut) (s : State) :
    aluAstat s.mstat s.astat o.r o.ov o.ac o.as = aluFlags o s := by
  have hz : (o.r == 0) = decide (o.r.toNat = 0) := by
    rw [Bool.beq_eq_decide_eq, decide_eq_decide]
    exact BitVec.toNat_inj.symm
  apply BitVec.eq_of_getLsbD_eq
  intro k hk
  rw [aluFlags, getLsbD_astatOf _ _ _ _ _ _ _ _ hk, getLsbD_aluAstat, hz, BitVec.msb_eq_toInt, latchedAv_eq]
  simp (disch := decide) only [withAluFlags, getLsbD_setBitTo]
  interval_cases k <;> rfl

theorem setAluFlags_eq (o : AluOut) (s : State) : setAluFlags o s = { s with astat := aluFlags o s } := by
  rw [← aluAstat_eq_aluFlags]
  rfl

theorem writeAluDest_result (o : AluOut) (s : State) :
    writeAluDest .result o s = setActive { active s with ar := saturated s.mstat o } s :=
  mapBank_eq_setActive (fun b => { b with ar := saturated s.mstat o }) s

theorem writeAluDest_feedback (o : AluOut) (s : State) :
    writeAluDest .feedback o s = setActive { active s with af := o.r } s :=
  mapBank_eq_setActive (fun b => { b with af := o.r }) s

/-- The commit of an ALU result is the statements'. -/
theorem commitAlu_eq_putAlu (z : Dest) (o : AluOut) (s : State) : commitAlu z o s = putAlu z o s := by
  unfold commitAlu
  cases z with
  | result => rw [writeAluDest_result, setAluFlags_eq]; rfl
  | feedback => rw [writeAluDest_feedback, setAluFlags_eq]; rfl

/-! ## Free flags (R221) -/

/-- The results of which PASS defines the flags. -/
theorem passDefines_iff (r : Word) : passDefines r = true ↔ r = 0xFFFF ∨ r = 0 ∨ r = 1 := by
  simp [passDefines, or_assoc]

/-- AR after free flags: the result, or in saturation mode perhaps a saturation value (R221, log 11). -/
theorem passKonstAr_cases (m : BitVec 7) (r : Word) (d : BitVec 24) :
    passKonstAr m r d = r ∨ (m.getLsbD 3 = true ∧ (passKonstAr m r d = 0x7FFF ∨ passKonstAr m r d = 0x8000)) := by
  unfold passKonstAr arSatOf
  split
  · next hsat =>
    split
    · split
      · exact .inr ⟨hsat, .inr rfl⟩
      · exact .inr ⟨hsat, .inl rfl⟩
    · exact .inl rfl
  · exact .inl rfl

theorem extractLsb'_withAluFlags (f : BitVec 8) (az an av ac : Bool) :
    (withAluFlags f az an av ac).extractLsb' 4 4 = f.extractLsb' 4 4 := by
  apply BitVec.eq_of_getLsbD_eq
  intro k hk
  simp only [BitVec.getLsbD_extractLsb', getLsbD_withAluFlags_high _ _ _ _ _ _ (Nat.le_add_right 4 k)]

/-- What PASS constant with free flags leaves (R221): the result, four free flags, one free value counted. -/
theorem passOther_spec (z : Dest) (r : Word) (s : State) :
    ∃ (a : BitVec 8) (v : Word), a.extractLsb' 4 4 = s.astat.extractLsb' 4 4 ∧
      (v = r ∨ (z = .result ∧ s.mstat.getLsbD 3 = true ∧ (v = 0x7FFF ∨ v = 0x8000))) ∧
      passOther z r s = setActive
        (match z with
        | .result => { active s with ar := v }
        | .feedback => { active s with af := v })
        { s with astat := a, draws := s.draws + 1 } := by
  cases z with
  | result =>
    refine ⟨_, passKonstAr s.mstat r (drawnValue s), extractLsb'_withAluFlags _ _ _ _ _, ?_,
      mapBank_eq_setActive (fun b => { b with ar := passKonstAr s.mstat r (drawnValue s) }) { s.drawn with astat := _ }⟩
    exact (passKonstAr_cases s.mstat r (drawnValue s)).imp_right fun h => ⟨rfl, h⟩
  | feedback =>
    exact ⟨_, r, extractLsb'_withAluFlags _ _ _ _ _, .inl rfl,
      mapBank_eq_setActive (fun b => { b with af := r }) { s.drawn with astat := _ }⟩

/-! ## The instructions -/

/-- PASS constant leaves what the sequencer reads. -/
theorem passKonst_keepsSequencer (f : AluFn) (z : Dest) (y : Word) : KeepsSequencer (passKonst f z y) := by
  intro s
  cases h : passDefines (alu f 0 y (acOf s.astat)).r
  · rw [passKonst_other f z y s h]
    cases z <;> exact ⟨rfl, rfl, rfl⟩
  · rw [passKonst_defined f z y s h]
    exact ⟨commitAlu_pc _ _ _, commitAlu_loopStack _ _ _, commitAlu_pcStack _ _ _⟩

theorem active_tested (c : Cond) (s : State) : active (tested c s) = active s := bank_tested c s

/-- Settles O6: a result of -1, 0 or 1 is committed as any ALU result, any other with free flags. -/
theorem passConstantStoresTheConstant : Obligations.PassConstantStoresTheConstant := by
  unfold Obligations.PassConstantStoresTheConstant
  intro z k c s i f ha hc hi
  have hf : f = .passY ∨ f = .incY ∨ f = .decY := by
    obtain ⟨-, h⟩ | ⟨-, h⟩ | ⟨-, h⟩ := hi <;> simp [h]
  have hexec : exec i s = runPassKonst f z k c s := by
    obtain ⟨rfl, rfl⟩ | ⟨rfl, rfl⟩ | ⟨rfl, rfl⟩ := hi <;> rfl
  have halu (t : State) : alu f 0 (konstVal k) (acOf t.astat) = aluOut f 0 (constVal k) false := by
    rw [alu_pass_eq_aluOut hf, konstVal_eq_constVal]
  have htested := sameButCounter_tested c s
  refine ⟨_, hexec.trans (runCondUpdate_next (passKonst_keepsSequencer f z (konstVal k)) ha hc),
    fun hcond => if_neg (by simp [hcond]), fun hcond hdef => ?_, fun hcond hfree => ?_⟩
  · rw [if_pos hcond, passKonst_defined _ _ _ _ (by rw [halu]; exact (passDefines_iff _).2 hdef), halu]
    exact commitAlu_eq_putAlu z _ _
  · have hother := Bool.eq_false_iff.2 (mt (passDefines_iff _).1 hfree)
    rw [if_pos hcond, passKonst_other _ _ _ _ (by rw [halu]; exact hother), halu]
    obtain ⟨a, v, ha4, hv, heq⟩ := passOther_spec z (aluOut f 0 (constVal k) false).r (tested c s)
    rw [htested.astat] at ha4
    rw [htested.mstat] at hv
    rw [active_tested, htested.draws] at heq
    exact ⟨a, v, ha4, hv, heq⟩

end Sys2Proof.Machine
end

section
/-!
The data address generators (R90 to R95): the modulus logic characterised by a congruence in the buffer, the bit-reversed
address, and MODIFY (R405).
-/

namespace Sys2Proof.Machine

open Sys2Proof.Spec

/-! ## The buffer of a length (R93) -/

/-- The exponent of a buffer's alignment: the least `n` with `2 ^ n` at least the length (R93). -/
def bufferExp (l : Addr) : Nat := leastPow l.toNat 14 0

/-- The base of the buffer that holds the address `i` (R93). -/
def bufferBase (i l : Addr) : Nat := i.toNat / 2 ^ bufferExp l * 2 ^ bufferExp l

theorem length_le_two_pow_bufferExp (l : Addr) : l.toNat ≤ 2 ^ bufferExp l :=
  le_leastPow l.toNat 14 0 (by simpa using l.isLt.le)

theorem bufferExp_le {l : Addr} {k : Nat} (h : l.toNat ≤ 2 ^ k) : bufferExp l ≤ k :=
  leastPow_le l.toNat 14 0 k (Nat.zero_le k) h (by simpa using l.isLt.le)

/-- It is the one exponent that reaches the length and has none below it that does. -/
theorem eq_bufferExp {l : Addr} {n : Nat} (hle : l.toNat ≤ 2 ^ n) (hleast : ∀ k, k < n → 2 ^ k < l.toNat) :
    n = bufferExp l := by
  refine le_antisymm (Nat.le_of_not_lt fun hlt => ?_) (bufferExp_le hle)
  exact absurd (hleast _ hlt) (Nat.not_lt.2 (length_le_two_pow_bufferExp l))

theorem two_pow_lt_length {l : Addr} {k : Nat} (h : k < bufferExp l) : 2 ^ k < l.toNat :=
  Nat.lt_of_not_le fun hle => absurd (bufferExp_le hle) (Nat.not_le.2 h)

theorem bufferBase_le (i l : Addr) : bufferBase i l ≤ i.toNat := Nat.div_mul_le_self _ _

/-- A buffer ends within the address space. -/
theorem bufferBase_add_length_le (i l : Addr) : bufferBase i l + l.toNat ≤ 2 ^ 14 := by
  have hexp : bufferExp l ≤ 14 := bufferExp_le (by simpa using l.isLt.le)
  have hsplit : 2 ^ (14 - bufferExp l) * 2 ^ bufferExp l = 2 ^ 14 := by rw [← pow_add, Nat.sub_add_cancel hexp]
  have hblock : i.toNat / 2 ^ bufferExp l < 2 ^ (14 - bufferExp l) :=
    Nat.div_lt_of_lt_mul (by rw [mul_comm, hsplit]; exact i.isLt)
  calc bufferBase i l + l.toNat
      ≤ i.toNat / 2 ^ bufferExp l * 2 ^ bufferExp l + 2 ^ bufferExp l :=
        Nat.add_le_add_left (length_le_two_pow_bufferExp l) _
    _ = (i.toNat / 2 ^ bufferExp l + 1) * 2 ^ bufferExp l := (Nat.succ_mul _ _).symm
    _ ≤ 2 ^ (14 - bufferExp l) * 2 ^ bufferExp l := Nat.mul_le_mul_right _ hblock
    _ = 2 ^ 14 := hsplit

/-! ## The modulus logic (R93) -/

/-- The address the modulus logic puts out, as an integer: the sum, taken modulo the length from the base. -/
def wrapped (i m l : Addr) : Int :=
  (bufferBase i l : Int) + (((i.toNat - bufferBase i l : Nat) : Int) + m.toInt) % (l.toNat : Int)

theorem modulus_eq (i m l : Addr) :
    modulus i m l =
      if l.toNat ≤ i.toNat - bufferBase i l ∨ l.toNat < m.toInt.natAbs then none
      else some (BitVec.ofInt 14 (wrapped i m l)) := rfl

/-- An address of the buffer congruent to the sum modulo the length is the wrapped one. -/
theorem eq_wrapped_iff {i m l : Addr} (hl : 0 < l.toNat) (a : Addr) :
    (bufferBase i l ≤ a.toNat ∧ a.toNat < bufferBase i l + l.toNat ∧
      (l.toNat : Int) ∣ (a.toNat : Int) - ((i.toNat : Int) + m.toInt)) ↔ (a.toNat : Int) = wrapped i m l := by
  have hbase := bufferBase_le i l
  have hlen : (0 : Int) < l.toNat := by exact_mod_cast hl
  have hdvd : (l.toNat : Int) ∣ (a.toNat : Int) - ((i.toNat : Int) + m.toInt) ↔
      ((a.toNat : Int) - bufferBase i l) % l.toNat =
        (((i.toNat - bufferBase i l : Nat) : Int) + m.toInt) % l.toNat := by
    have hsub : (a.toNat : Int) - ((i.toNat : Int) + m.toInt) =
        ((a.toNat : Int) - bufferBase i l) - (((i.toNat - bufferBase i l : Nat) : Int) + m.toInt) := by omega
    rw [hsub, eq_comm (a := _ % _)]
    exact Int.modEq_iff_dvd.symm
  constructor
  · rintro ⟨hlow, hhigh, hcong⟩
    have hmod := hdvd.1 hcong
    rw [Int.emod_eq_of_lt (by omega) (by omega)] at hmod
    unfold wrapped
    omega
  · intro ha
    have hnn := Int.emod_nonneg (((i.toNat - bufferBase i l : Nat) : Int) + m.toInt) hlen.ne'
    have hlt := Int.emod_lt_of_pos (((i.toNat - bufferBase i l : Nat) : Int) + m.toInt) hlen
    unfold wrapped at ha
    refine ⟨by omega, by omega, hdvd.2 ?_⟩
    rw [ha, add_sub_cancel_left, Int.emod_emod_of_dvd _ (dvd_refl _)]

/-- An address is a bit vector's value exactly when the integer is in range. -/
theorem ofInt_eq_iff {z : Int} (h0 : 0 ≤ z) (h1 : z < 2 ^ 14) (a : Addr) :
    BitVec.ofInt 14 z = a ↔ (a.toNat : Int) = z := by
  have hz : (BitVec.ofInt 14 z).toNat = z.toNat := by
    rw [BitVec.toNat_ofInt, Int.emod_eq_of_lt h0 (by exact_mod_cast h1)]
  rw [← BitVec.toNat_inj, hz]
  omega

theorem wrapped_range {i m l : Addr} (hl : 0 < l.toNat) : 0 ≤ wrapped i m l ∧ wrapped i m l < 2 ^ 14 := by
  have hlen : (0 : Int) < l.toNat := by exact_mod_cast hl
  have hend : (bufferBase i l : Int) + l.toNat ≤ 2 ^ 14 := by exact_mod_cast bufferBase_add_length_le i l
  have hnn := Int.emod_nonneg (((i.toNat - bufferBase i l : Nat) : Int) + m.toInt) hlen.ne'
  have hlt := Int.emod_lt_of_pos (((i.toNat - bufferBase i l : Nat) : Int) + m.toInt) hlen
  unfold wrapped
  omega

/-- The modulus logic answers an address exactly when R93 gives it. -/
theorem modulus_eq_some_iff {i m l : Addr} (hl : 0 < l.toNat) (a : Addr) :
    modulus i m l = some a ↔
      i.toNat < bufferBase i l + l.toNat ∧ m.toInt.natAbs ≤ l.toNat ∧ bufferBase i l ≤ a.toNat ∧
        a.toNat < bufferBase i l + l.toNat ∧ (l.toNat : Int) ∣ (a.toNat : Int) - ((i.toNat : Int) + m.toInt) := by
  have hbase := bufferBase_le i l
  obtain ⟨h0, h1⟩ := wrapped_range (i := i) (m := m) hl
  rw [eq_wrapped_iff hl a, ← ofInt_eq_iff h0 h1, modulus_eq]
  split
  · next h =>
    refine ⟨nofun, fun ⟨hin, hm, _⟩ => ?_⟩
    omega
  · next h =>
    rw [Option.some.injEq]
    exact ⟨fun ha => ⟨by omega, by omega, ha⟩, fun ⟨_, _, ha⟩ => ha⟩

/-! ## The post-modify (R92) -/

theorem add_eq_ofInt (i m : Addr) : i + m = BitVec.ofInt 14 ((i.toNat : Int) + m.toInt) := by
  rw [BitVec.ofInt_add, BitVec.ofInt_toInt]
  simp

/-- The machine's post-modify is the statements'. -/
theorem modifiedI_eq_ok_iff (g : Dag) (i m : Fin 4) (s : State) (a : Addr) :
    modifiedI g i m s = .ok a ↔ NextI g i m s a := by
  unfold modifiedI NextI
  have hzero : s.lreg.get (dagIndex g i) = 0 ↔ (s.lreg.get (dagIndex g i)).toNat = 0 := BitVec.toNat_inj.symm
  dsimp only
  split
  · next hl => rw [if_pos (hzero.1 hl), ← add_eq_ofInt, Except.ok.injEq, eq_comm]
  · next hl =>
    have hpos : 0 < (s.lreg.get (dagIndex g i)).toNat := Nat.pos_of_ne_zero (mt hzero.2 hl)
    rw [if_neg (mt hzero.2 hl)]
    trans modulus (s.ireg.get (dagIndex g i)) (s.mreg.get (dagIndex g m)) (s.lreg.get (dagIndex g i)) = some a
    · split <;> simp [*]
    · rw [modulus_eq_some_iff hpos]
      constructor
      · intro h
        exact ⟨_, _, length_le_two_pow_bufferExp _, fun k hk => two_pow_lt_length hk, Nat.mul_comm _ _, h⟩
      · rintro ⟨n, base, hle, hleast, rfl, h⟩
        obtain rfl := eq_bufferExp hle hleast
        rw [Nat.mul_comm] at h
        exact h

/-- Where the post-modify has no answer it is the fault of R93. -/
theorem modifiedI_eq_circular {g : Dag} {i m : Fin 4} {s : State} (h : ¬ ∃ a, NextI g i m s a) :
    modifiedI g i m s = .error .circular := by
  cases hm : modifiedI g i m s with
  | ok a => exact absurd ⟨a, (modifiedI_eq_ok_iff g i m s a).1 hm⟩ h
  | error e =>
    unfold modifiedI at hm
    dsimp only at hm
    split at hm
    · cases hm
    · split at hm <;> cases hm
      rfl

/-! ## The address put out (R90, R95) -/

theorem getLsbD_rev14 (a : Addr) {k : Nat} (hk : k < 14) : (rev14 a).getLsbD k = a.getLsbD (13 - k) := by
  rw [rev14, BitVec.getLsbD_reverse, BitVec.getMsbD, decide_eq_true hk, Bool.true_and]

theorem getLsbD_dagAddr (g : Dag) (i : Fin 4) (s : State) {k : Nat} (hk : k < 14) :
    (dagAddr g i s).getLsbD k =
      (s.ireg.get (dagIndex g i)).getLsbD (if g = .one ∧ s.mstat.getLsbD 1 = true then 13 - k else k) := by
  unfold dagAddr bitRevOf
  dsimp only
  split
  · exact getLsbD_rev14 _ hk
  · rfl

/-- Settles O25: the congruence of `modulus_eq_some_iff`, the reversal bit by bit, and MODIFY. -/
theorem addressGenerators : Obligations.AddressGenerators := by
  unfold Obligations.AddressGenerators
  intro g i m s
  refine ⟨rfl, rfl, fun k hk => getLsbD_dagAddr g i s hk, modifiedI_eq_ok_iff g i m s,
    fun ha => ⟨fun a hnext => ?_, fun hnone => ?_⟩⟩
  · refine runPlain_next (t := setI g i a s) (guard_plain s ha) ha ?_ ⟨rfl, rfl, rfl⟩
    simp only [modifyI, (modifiedI_eq_ok_iff g i m s a).2 hnext]
  · refine runPlain_fault (guard_plain s ha) ha ?_
    simp only [modifyI, modifiedI_eq_circular hnone]

end Sys2Proof.Machine
end

section
/-!
Memory accesses in the statements' terms (R82 to R87): when a read or a write completes and with what, which fault it
answers otherwise, and what it leaves alone. With them, the fetch and the step (R462).
-/

namespace Sys2Proof.Machine

open Sys2Proof.Spec

/-! ## Reads (R82, R84) -/

/-- A data-memory read completes exactly where the statements let it. -/
theorem memReadDm_eq_ok_iff (a : Addr) (s : State) (v : Word) (t : State) :
    memReadDm a s = .ok (v, t) ↔ DmReads a s v t := by
  unfold memReadDm DmReads
  cases backing s.cfg.dmMap a.toNat with
  | none => exact iff_of_false nofun id
  | some k =>
    cases k with
    | device =>
      simp only [Except.ok.injEq, Prod.mk.injEq]
      constructor <;> (rintro ⟨rfl, rfl⟩; exact ⟨rfl, rfl⟩)
    | ram | rom =>
      cases Memory.readDm s.dm a with
      | none => exact iff_of_false nofun nofun
      | some x => simp [eq_comm]

theorem memReadPm_eq_ok_iff (a : Addr) (s : State) (w : PWord) (t : State) :
    memReadPm a s = .ok (w, t) ↔ PmReads a s w t := by
  unfold memReadPm PmReads
  cases backing s.cfg.pmMap a.toNat with
  | none => exact iff_of_false nofun id
  | some k =>
    cases k with
    | device =>
      simp only [Except.ok.injEq, Prod.mk.injEq]
      constructor <;> (rintro ⟨rfl, rfl⟩; exact ⟨rfl, rfl⟩)
    | ram | rom =>
      cases Memory.readPm s.pm a with
      | none => exact iff_of_false nofun nofun
      | some x => simp [eq_comm]

theorem memReadDm_unmapped {a : Addr} {s : State} (h : backing s.cfg.dmMap a.toNat = none) :
    memReadDm a s = .error (.unmappedAccess .dm a) := by
  simp only [memReadDm, h]

theorem memReadDm_unwritten {a : Addr} {s : State}
    (h : backing s.cfg.dmMap a.toNat = some .ram ∨ backing s.cfg.dmMap a.toNat = some .rom)
    (hnone : Memory.readDm s.dm a = none) : memReadDm a s = .error (.uninitRead .dm a) := by
  obtain h | h := h <;> simp only [memReadDm, h, hnone]

theorem memReadPm_unmapped {a : Addr} {s : State} (h : backing s.cfg.pmMap a.toNat = none) :
    memReadPm a s = .error (.unmappedAccess .pm a) := by
  simp only [memReadPm, h]

theorem memReadPm_unwritten {a : Addr} {s : State}
    (h : backing s.cfg.pmMap a.toNat = some .ram ∨ backing s.cfg.pmMap a.toNat = some .rom)
    (hnone : Memory.readPm s.pm a = none) : memReadPm a s = .error (.uninitRead .pm a) := by
  obtain h | h := h <;> simp only [memReadPm, h, hnone]

/-! ## Writes (R83, R85) -/

/-- A byte outside the word at `a` is not touched by a write of it. -/
theorem read_writeDm_of_ne (m : Memory) (a : Addr) (v : Word) {k : Nat} (h0 : k ≠ 2 * a.toNat)
    (h1 : k ≠ 2 * a.toNat + 1) : Memory.read (Memory.writeDm m a v) k = Memory.read m k :=
  Memory.read_writeDm_other m a v k (by omega)

theorem read_writePm_of_ne (m : Memory) (a : Addr) (w : PWord) {k : Nat} (h0 : k ≠ 3 * a.toNat)
    (h1 : k ≠ 3 * a.toNat + 1) (h2 : k ≠ 3 * a.toNat + 2) :
    Memory.read (Memory.writePm m a w) k = Memory.read m k :=
  Memory.read_writePm_other m a w k (by omega)

/-- A write to RAM or a device completes, and the word reads back. -/
theorem memWriteDm_of_writable {a : Addr} {s : State} (h : Writable s.cfg.dmMap a) (v : Word) :
    ∃ t, memWriteDm a v s = .ok t ∧ DmStores a v s t := by
  unfold memWriteDm DmStores
  obtain h | h := h <;> simp only [h]
  · exact ⟨_, rfl, rfl, Memory.readDm_writeDm_same _ _ _, fun k h0 h1 => read_writeDm_of_ne _ _ _ h0 h1⟩
  · exact ⟨_, rfl, rfl⟩

theorem memWritePm_of_writable {a : Addr} {s : State} (h : Writable s.cfg.pmMap a) (w : PWord) :
    ∃ t, memWritePm a w s = .ok t ∧ PmStores a w s t := by
  unfold memWritePm PmStores
  obtain h | h := h <;> simp only [h]
  · exact ⟨_, rfl, mem_addToSet _ _, rfl, Memory.readPm_writePm_same _ _ _,
      fun k h0 h1 h2 => read_writePm_of_ne _ _ _ h0 h1 h2⟩
  · exact ⟨_, rfl, mem_addToSet _ _, rfl⟩

theorem memWriteDm_refused {a : Addr} {s : State}
    (h : backing s.cfg.dmMap a.toNat = none ∨ backing s.cfg.dmMap a.toNat = some .rom) (v : Word) :
    memWriteDm a v s = .error (.unmappedAccess .dm a) := by
  obtain h | h := h <;> simp only [memWriteDm, h]

theorem memWritePm_refused {a : Addr} {s : State}
    (h : backing s.cfg.pmMap a.toNat = none ∨ backing s.cfg.pmMap a.toNat = some .rom) (w : PWord) :
    memWritePm a w s = .error (.unmappedAccess .pm a) := by
  obtain h | h := h <;> simp only [memWritePm, h]

/-! ## What an access leaves alone -/

/-- `t` is `s` but for what a memory access may change: the memories, PM_DIRTY, the draws and the events. -/
def Accessed (s t : State) : Prop :=
  ∃ p d l n es, t = { s with pm := p, dm := d, pmDirty := l, draws := n, events := es }

theorem memReadDm_accessed {a : Addr} {s : State} {v : Word} {t : State} (h : memReadDm a s = .ok (v, t)) :
    Accessed s t := by
  obtain ⟨rfl, -⟩ | ⟨-, rfl⟩ := memReadDm_inv a s v t h <;> exact ⟨_, _, _, _, _, rfl⟩

theorem memReadPm_accessed {a : Addr} {s : State} {w : PWord} {t : State} (h : memReadPm a s = .ok (w, t)) :
    Accessed s t := by
  obtain ⟨rfl, -⟩ | ⟨-, rfl⟩ := memReadPm_inv a s w t h <;> exact ⟨_, _, _, _, _, rfl⟩

theorem memWriteDm_accessed {a : Addr} {v : Word} {s t : State} (h : memWriteDm a v s = .ok t) : Accessed s t := by
  obtain rfl | rfl := memWriteDm_inv a v s t h <;> exact ⟨_, _, _, _, _, rfl⟩

theorem memWritePm_accessed {a : Addr} {w : PWord} {s t : State} (h : memWritePm a w s = .ok t) : Accessed s t := by
  obtain rfl | rfl := memWritePm_inv a w s t h <;> exact ⟨_, _, _, _, _, rfl⟩

theorem Accessed.trans {s t u : State} (h : Accessed s t) (k : Accessed t u) : Accessed s u := by
  obtain ⟨_, _, _, _, _, rfl⟩ := h
  obtain ⟨_, _, _, _, _, rfl⟩ := k
  exact ⟨_, _, _, _, _, rfl⟩

theorem Accessed.cfg {s t : State} (h : Accessed s t) : t.cfg = s.cfg := by
  obtain ⟨_, _, _, _, _, rfl⟩ := h
  rfl

/-- What the sequencer reads is the same: the pc, the loop stack and the PC stack. -/
def SameSequencer (s t : State) : Prop := t.pc = s.pc ∧ t.loopStack = s.loopStack ∧ t.pcStack = s.pcStack

theorem SameSequencer.trans {s t u : State} (h : SameSequencer s t) (k : SameSequencer t u) : SameSequencer s u := by
  obtain ⟨hpc, hloop, hstack⟩ := h
  obtain ⟨kpc, kloop, kstack⟩ := k
  exact ⟨kpc.trans hpc, kloop.trans hloop, kstack.trans hstack⟩

theorem Accessed.sameSequencer {s t : State} (h : Accessed s t) : SameSequencer s t := by
  obtain ⟨_, _, _, _, _, rfl⟩ := h
  exact ⟨rfl, rfl, rfl⟩

/-! ## The step (R462) -/

/-- With no eligible source there is no interrupt to take. -/
theorem interruptDue_eq_none {s : State} (h : ∀ q, ¬ Eligible s q) : interruptDue s = none := by
  cases hdue : interruptDue s with
  | none => rfl
  | some q =>
    obtain ⟨hmem, -⟩ := firstByPriority_mem _ q hdue
    have heligible : Eligible s q := by simpa [eligible, Eligible, and_assoc] using hmem
    exact absurd heligible (h q)

theorem fetch_eq_ok_iff (s : State) (w : PWord) (t : State) : fetch s = .ok (w, t) ↔ Fetches s w t := by
  unfold Fetches
  rw [← memReadPm_eq_ok_iff]
  refine ⟨fetch_inv s w t, fun ⟨hclean, hread⟩ => ?_⟩
  simpa [fetch, hclean] using hread

theorem fetch_dirty {s : State} (h : s.pc.toNat ∈ s.pmDirty) : fetch s = .error (.fetchAfterPmWrite s.pc) := by
  simp [fetch, h]

theorem fetch_clean {s : State} (h : s.pc.toNat ∉ s.pmDirty) : fetch s = memReadPm s.pc s := by
  simp [fetch, h]

section
variable {s : State} (hdue : interruptDue (environmentStep s) = none)
include hdue

theorem step_idle (hidle : (environmentStep s).idle = true) : step s = .next (environmentStep s) := by
  simp [step, hdue, hidle]

theorem step_fetch_fault (hidle : (environmentStep s).idle = false) {f : Fault}
    (hf : fetch (environmentStep s) = .error f) : step s = .fault f := by
  simp [step, hdue, hidle, hf]

theorem step_reserved (hidle : (environmentStep s).idle = false) {w : PWord} {t : State}
    (hf : fetch (environmentStep s) = .ok (w, t)) (hd : decode (environmentStep s).cfg w = none) :
    step s = .fault (.reservedInstruction w) := by
  have hcfg : t.cfg = (environmentStep s).cfg := (memReadPm_accessed (fetch_inv _ _ _ hf).2).cfg
  simp [step, hdue, hidle, hf, hcfg, hd]

theorem step_exec (hidle : (environmentStep s).idle = false) {w : PWord} {t : State}
    (hf : fetch (environmentStep s) = .ok (w, t)) {i : Instr} (hd : decode (environmentStep s).cfg w = some i) :
    step s = finishStep (environmentStep s).pcPopPending (exec i t) := by
  have hcfg : t.cfg = (environmentStep s).cfg := (memReadPm_accessed (fetch_inv _ _ _ hf).2).cfg
  simp [step, hdue, hidle, hf, hcfg, hd]

end

theorem finishStep_no_pop (o : Out) : finishStep false o = o := by
  cases o <;> rfl

theorem finishStep_pop {t : State} {a : Addr} {rest : List Addr} (h : t.pcStack = a :: rest) :
    finishStep true (.next t) = .next { t with pcStack := rest, pcPopPending := false } := by
  simp [finishStep, delayedPop, popPc, h]

theorem finishStep_pop_empty {t : State} (h : t.pcStack = []) :
    finishStep true (.next t) = .fault (.stackUnderflow .pc) := by
  simp [finishStep, delayedPop, popPc, h]

/-- Settles O51: the cases of the step with no interrupt due. -/
theorem stepRunsTheDecodedInstruction : Obligations.StepRunsTheDecodedInstruction := by
  unfold Obligations.StepRunsTheDecodedInstruction
  intro s e hnone
  have hdue : interruptDue e = none := interruptDue_eq_none hnone
  refine ⟨step_idle hdue, fun hidle hdirty => step_fetch_fault hdue hidle (fetch_dirty hdirty),
    fun hidle hclean => ⟨fun hmap => ?_, fun hmap hunwritten => ?_⟩, fun w u hidle hfetch hd => ?_,
    fun w u i hidle hfetch hd => ?_⟩
  · exact step_fetch_fault hdue hidle ((fetch_clean hclean).trans (memReadPm_unmapped hmap))
  · exact step_fetch_fault hdue hidle ((fetch_clean hclean).trans (memReadPm_unwritten hmap hunwritten))
  · exact step_reserved hdue hidle ((fetch_eq_ok_iff _ _ _).2 hfetch) hd
  · have hstep := step_exec hdue hidle ((fetch_eq_ok_iff _ _ _).2 hfetch) hd
    refine ⟨fun hp => ?_, fun hp => ⟨fun t a rest hx hstack => ?_, fun t hx hstack => ?_, fun f hx => ?_⟩⟩
    · rw [hstep, hp, finishStep_no_pop]
    · rw [hstep, hp, hx, finishStep_pop hstack]
    · rw [hstep, hp, hx, finishStep_pop_empty hstack]
    · rw [hstep, hp, hx]
      rfl

end Sys2Proof.Machine
end

section
/-!
The moves of data memory, program memory and I/O space (R320 to R331): the indirect accesses in the statements' terms, an
indirect read beside any clause (R430 to R432 and, with no clause, R321 and R322), and every fault of the accesses.
-/

namespace Sys2Proof.Machine

open Sys2Proof.Spec

/-! ## Indirect accesses (R321, R322, R325, R327) -/

section
variable {g : Dag} {i m : Fin 4} {s : State} {a : Addr} {f : Fault}

theorem dmFetch_of_reads {v : Word} {u : State} (hn : NextI g i m s a) (hr : DmReads (dagAddr g i s) s v u) :
    dmFetch g i m s = .ok (v, u, a) := by
  simp only [dmFetch, (modifiedI_eq_ok_iff g i m s a).2 hn, (memReadDm_eq_ok_iff _ s v u).2 hr]

theorem dmFetch_circular (h : ¬ ∃ a, NextI g i m s a) : dmFetch g i m s = .error .circular := by
  simp only [dmFetch, modifiedI_eq_circular h]

theorem dmFetch_fault (hn : ∃ a, NextI g i m s a) (hf : memReadDm (dagAddr g i s) s = .error f) :
    dmFetch g i m s = .error f := by
  obtain ⟨a, ha⟩ := hn
  simp only [dmFetch, (modifiedI_eq_ok_iff g i m s a).2 ha, hf]

theorem pmFetch_of_reads {w : PWord} {u : State} (hn : NextI .two i m s a) (hr : PmReads (dagAddr .two i s) s w u) :
    pmFetch i m s = .ok (w, u, a) := by
  simp only [pmFetch, (modifiedI_eq_ok_iff .two i m s a).2 hn, (memReadPm_eq_ok_iff _ s w u).2 hr]

theorem pmFetch_circular (h : ¬ ∃ a, NextI .two i m s a) : pmFetch i m s = .error .circular := by
  simp only [pmFetch, modifiedI_eq_circular h]

theorem pmFetch_fault (hn : ∃ a, NextI .two i m s a) (hf : memReadPm (dagAddr .two i s) s = .error f) :
    pmFetch i m s = .error f := by
  obtain ⟨a, ha⟩ := hn
  simp only [pmFetch, (modifiedI_eq_ok_iff .two i m s a).2 ha, hf]

theorem dmStore_of_writes {v : Word} {t : State} (hn : NextI g i m s a) (hw : memWriteDm (dagAddr g i s) v s = .ok t) :
    dmStore g v i m s = .ok (setI g i a t) := by
  simp only [dmStore, (modifiedI_eq_ok_iff g i m s a).2 hn, hw]

theorem dmStore_circular (h : ¬ ∃ a, NextI g i m s a) (v : Word) : dmStore g v i m s = .error .circular := by
  simp only [dmStore, modifiedI_eq_circular h]

theorem dmStore_fault {v : Word} (hn : ∃ a, NextI g i m s a) (hf : memWriteDm (dagAddr g i s) v s = .error f) :
    dmStore g v i m s = .error f := by
  obtain ⟨a, ha⟩ := hn
  simp only [dmStore, (modifiedI_eq_ok_iff g i m s a).2 ha, hf]

theorem pmStore_of_writes {v : Word} {t : State} (hn : NextI .two i m s a)
    (hw : memWritePm (dagAddr .two i s) (v ++ s.px) s = .ok t) : pmStore v i m s = .ok (setI .two i a t) := by
  simp only [pmStore, (modifiedI_eq_ok_iff .two i m s a).2 hn, hw]

theorem pmStore_circular (h : ¬ ∃ a, NextI .two i m s a) (v : Word) : pmStore v i m s = .error .circular := by
  simp only [pmStore, modifiedI_eq_circular h]

theorem pmStore_fault {v : Word} (hn : ∃ a, NextI .two i m s a)
    (hf : memWritePm (dagAddr .two i s) (v ++ s.px) s = .error f) : pmStore v i m s = .error f := by
  obtain ⟨a, ha⟩ := hn
  simp only [pmStore, (modifiedI_eq_ok_iff .two i m s a).2 ha, hf]

end

/-- The register side of a program-memory read (R96). -/
theorem loadFromPm_eq_putPm (d : Dreg) (w : PWord) (s : State) : loadFromPm d w s = putPm d w s := by
  unfold loadFromPm putPm
  rw [writeDreg_eq_putDreg]

/-! ## A read beside a clause -/

section
variable {g : Dag} {i m : Fin 4} {s : State} {d : Dreg} {clause : State → State → State}

/-- A data-memory read beside a clause, whose operands are those before the instruction: the clause's result, then the
register, then I. -/
theorem runDmRead_next (hc : KeepsSequencer (clause s)) (ha : CanAdvance s) {v : Word} {u : State} {a : Addr}
    (hn : NextI g i m s a) (hr : DmReads (dagAddr g i s) s v u) :
    runPlain .plain (fun t => withDmRead (clause t) g d i m t) s =
      .next (advance s (putI g i a (putDreg d v (clause s u)))) := by
  have hread : SameSequencer s u := (memReadDm_accessed ((memReadDm_eq_ok_iff _ s v u).2 hr)).sameSequencer
  rw [← writeDreg_eq_putDreg]
  refine runPlain_next (guard_plain s ha) ha ?_ (hread.trans (hc u))
  rw [withDmRead, dmFetch_of_reads hn hr]
  rfl

theorem runDmRead_fault (ha : CanAdvance s) {f : Fault} (hf : dmFetch g i m s = .error f) :
    runPlain .plain (fun t => withDmRead (clause t) g d i m t) s = .fault f := by
  refine runPlain_fault (guard_plain s ha) ha ?_
  rw [withDmRead, hf]

/-- A program-memory read beside a clause: PX too (R96). -/
theorem runPmRead_next (hc : KeepsSequencer (clause s)) (ha : CanAdvance s) {w : PWord} {u : State} {a : Addr}
    (hn : NextI .two i m s a) (hr : PmReads (dagAddr .two i s) s w u) :
    runPlain .plain (fun t => withPmRead (clause t) d i m t) s =
      .next (advance s (putI .two i a (putPm d w (clause s u)))) := by
  have hread : SameSequencer s u := (memReadPm_accessed ((memReadPm_eq_ok_iff _ s w u).2 hr)).sameSequencer
  rw [← loadFromPm_eq_putPm]
  refine runPlain_next (guard_plain s ha) ha ?_ (hread.trans (hc u))
  rw [withPmRead, pmFetch_of_reads hn hr]
  rfl

theorem runPmRead_fault (ha : CanAdvance s) {f : Fault} (hf : pmFetch i m s = .error f) :
    runPlain .plain (fun t => withPmRead (clause t) d i m t) s = .fault f := by
  refine runPlain_fault (guard_plain s ha) ha ?_
  rw [withPmRead, hf]

end

/-- The reads that stand alone are reads beside a clause that does nothing. -/
def noClause (_ s : State) : State := s

theorem noClause_keepsSequencer (s : State) : KeepsSequencer (noClause s) := fun _ => ⟨rfl, rfl, rfl⟩

theorem exec_dmRead (g : Dag) (d : Dreg) (i m : Fin 4) (s : State) :
    exec (.dmRead g d i m) s = runPlain .plain (fun t => withDmRead (noClause t) g d i m t) s := by
  rfl

theorem exec_pmRead (d : Dreg) (i m : Fin 4) (s : State) :
    exec (.pmRead d i m) s = runPlain .plain (fun t => withPmRead (noClause t) d i m t) s := by
  rfl

/-- Settles O22: the reads beside no clause. -/
theorem indirectReadsLoad : Obligations.IndirectReadsLoad := by
  unfold Obligations.IndirectReadsLoad
  refine ⟨fun g d i m s u v a ha hn hr => ?_, fun d i m s u w a ha hn hr => ?_⟩
  · exact (exec_dmRead g d i m s).trans (runDmRead_next (noClause_keepsSequencer s) ha hn hr)
  · exact (exec_pmRead d i m s).trans (runPmRead_next (noClause_keepsSequencer s) ha hn hr)

/-! ## Stores -/

section
variable {g : Dag} {i m : Fin 4} {s : State} {a : Addr}

/-- An indirect data-memory write to RAM or a device of a value of the state before it (R325, R326). -/
theorem runDmStore_next (v : State → Word) (ha : CanAdvance s) (hn : NextI g i m s a)
    (hw : Writable s.cfg.dmMap (dagAddr g i s)) :
    ∃ t, DmStores (dagAddr g i s) (v s) s t ∧
      runPlain .plain (fun t => dmStore g (v t) i m t) s = .next (advance s (putI g i a t)) := by
  obtain ⟨t, hwrite, hstores⟩ := memWriteDm_of_writable hw (v s)
  exact ⟨t, hstores, runPlain_next (guard_plain s ha) ha (dmStore_of_writes hn hwrite)
    (memWriteDm_accessed hwrite).sameSequencer⟩

/-- An indirect program-memory write to RAM or a device (R327). -/
theorem runPmStore_next (v : State → Word) (ha : CanAdvance s) (hn : NextI .two i m s a)
    (hw : Writable s.cfg.pmMap (dagAddr .two i s)) :
    ∃ t, PmStores (dagAddr .two i s) (v s ++ s.px) s t ∧
      runPlain .plain (fun t => pmStore (v t) i m t) s = .next (advance s (putI .two i a t)) := by
  obtain ⟨t, hwrite, hstores⟩ := memWritePm_of_writable hw (v s ++ s.px)
  exact ⟨t, hstores, runPlain_next (guard_plain s ha) ha (pmStore_of_writes hn hwrite)
    (memWritePm_accessed hwrite).sameSequencer⟩

end

/-- Settles O23: the store of a register's value or of a constant. -/
theorem indirectWritesStore : Obligations.IndirectWritesStore := by
  unfold Obligations.IndirectWritesStore
  refine ⟨fun g i m s a ha hn hw => ⟨fun r => ?_, fun v => runDmStore_next (fun _ => v) ha hn hw⟩,
    fun r i m s a ha hn hw => ?_⟩
  · rw [← readDreg_eq_dregVal]
    exact runDmStore_next (readDreg r) ha hn hw
  · rw [← readDreg_eq_dregVal]
    exact runPmStore_next (readDreg r) ha hn hw

/-! ## Direct moves (R320, R324) -/

theorem writesCounter_eq_true_iff (d : DstReg) : writesCounter d = true ↔ d = .reg .cntr ∨ d = .owrcntr := by
  unfold writesCounter
  split <;> simp_all

section
variable {d : DstReg} {r : SrcReg} {a : Addr} {s : State}

theorem exec_dmReadDirect_next {v : Word} {u : State} (ha : CanAdvance s) (hw : CanWrite d s) (hr : DmReads a s v u) :
    ∃ t, DstWrites d v u t ∧ exec (.dmReadDirect d a) s = .next (advance s t) := by
  have hread := (memReadDm_eq_ok_iff a s v u).2 hr
  have haccess := memReadDm_accessed hread
  have hroom : d = .reg .cntr → u.cntrValid = true → u.cntrStack.length < u.cfg.cntrStackDepth := by
    obtain ⟨_, _, _, _, _, rfl⟩ := haccess
    exact hw.1
  obtain ⟨t, hwrite, hdst⟩ := writeDst_ok_of_room hroom v
  have hsame := writeDst_same d v u t hwrite
  refine ⟨t, hdst, runPlain_next (hazards_moveGuard ha hw) ha ?_
    (haccess.sameSequencer.trans ⟨hsame.pc, hsame.loopStack, hsame.pcStack⟩)⟩
  simp only [loadDirect, hread, hwrite]

theorem exec_dmReadDirect_fault {f : Fault} (ha : CanAdvance s)
    (hd : d = .reg .cntr ∨ d = .owrcntr → atLoopEnd s = true → endsOnCe s = false)
    (hf : memReadDm a s = .error f) : exec (.dmReadDirect d a) s = .fault f := by
  have hguard : hazards (moveGuard d) s = .ok () :=
    guard_counter s ha (writesCounter d) fun hcounter => hd ((writesCounter_eq_true_iff d).1 hcounter)
  refine runPlain_fault hguard ha ?_
  simp only [loadDirect, hf]

theorem exec_dmWriteDirect_next (ha : CanAdvance s) (hr : CanRead r s) (hw : Writable s.cfg.dmMap a) :
    ∃ v u t, SrcReads r s v u ∧ DmStores a v u t ∧ exec (.dmWriteDirect a r) s = .next (advance s t) := by
  obtain ⟨v, u, hread, hsrc⟩ := readSrc_ok_of_canRead hr
  obtain ⟨⟨-, -, hcfg⟩, hsame⟩ := readSrc_keeps_counter hread
  rw [← hcfg] at hw
  obtain ⟨t, hwrite, hstores⟩ := memWriteDm_of_writable hw v
  refine ⟨v, u, t, hsrc, hstores, runPlain_next (guard_plain s ha) ha ?_
    (SameSequencer.trans hsame (memWriteDm_accessed hwrite).sameSequencer)⟩
  simp only [storeDirect, hread, hwrite]

/-- The source is read before the memory is written (R459), so an expired CNTR faults whatever backs the address. -/
theorem exec_dmWriteDirect_expired (ha : CanAdvance s) (h : cntrReadable s = false) :
    exec (.dmWriteDirect a (.reg .cntr)) s = .fault .uninitCntr := by
  refine runPlain_fault (guard_plain s ha) ha ?_
  simp only [storeDirect, readSrc, readReg_cntr_expired s h]

theorem exec_dmWriteDirect_refused (ha : CanAdvance s) (hr : CanRead r s)
    (h : backing s.cfg.dmMap a.toNat = none ∨ backing s.cfg.dmMap a.toNat = some .rom) :
    exec (.dmWriteDirect a r) s = .fault (.unmappedAccess .dm a) := by
  obtain ⟨v, u, hread, -⟩ := readSrc_ok_of_canRead hr
  obtain ⟨⟨-, -, hcfg⟩, -⟩ := readSrc_keeps_counter hread
  rw [← hcfg] at h
  refine runPlain_fault (guard_plain s ha) ha ?_
  simp only [storeDirect, hread, memWriteDm_refused h v]

end

/-- Settles O21: a read and then a write, of memory and of a register. -/
theorem directMemoryMoves : Obligations.DirectMemoryMoves := by
  unfold Obligations.DirectMemoryMoves
  exact ⟨fun d a s u v => exec_dmReadDirect_next, fun a r s => exec_dmWriteDirect_next,
    fun a s ha hvalid hexp => exec_dmWriteDirect_expired ha (by simp [cntrReadable, hvalid, hexp])⟩

/-! ## I/O moves (R330, R331) -/

/-- Settles O24: the register is loaded with the drawn value; the write is an event. -/
theorem ioMovesTalkToDevices : Obligations.IoMovesTalkToDevices := by
  unfold Obligations.IoMovesTalkToDevices
  refine ⟨fun d a s ha => ?_, fun d a s ha => ?_⟩
  · dsimp only
    rw [← writeDreg_eq_putDreg]
    exact runUpdate_next (f := fun t => writeDreg d (ioReadWord a t).1 (ioReadWord a t).2)
      (fun _ => ⟨rfl, rfl, rfl⟩) ha
  · dsimp only
    rw [← readDreg_eq_dregVal]
    exact runUpdate_next (f := fun t => ioWriteWord a (readDreg d t) t) (fun _ => ⟨rfl, rfl, rfl⟩) ha

/-! ## Two writers of one register (R422) -/

theorem calcWrites_eq_true_iff (z : Dest) (k : Calc) (d : Dreg) : calcWrites z k d = true ↔ collides z k d := by
  unfold calcWrites collides
  cases z with
  | feedback => exact iff_of_false nofun fun ⟨h, _⟩ => nomatch h
  | result => cases k <;> simp [or_assoc]

theorem shiftWrites_eq_true_iff (f : ShFn) (d : Dreg) : shiftWrites f d = true ↔ shiftCollides f d := by
  cases f with
  | expAdj => exact iff_of_false nofun id
  | expHi | expHix | expLo => exact beq_iff_eq
  | lshiftHi | lshiftHiOr | lshiftLo | lshiftLoOr | ashiftHi | ashiftHiOr | ashiftLo | ashiftLoOr | normHi | normHiOr
  | normLo | normLoOr => simp [shiftWrites, shiftCollides]

/-- An instruction that R422 lets pass runs as one with no hazard of its own. -/
theorem unlessTwoWriters_pass {bad : Bool} {p : Prop} (hbad : bad = true ↔ p) (h : ¬ p)
    (eff : State → Except Fault State) (s : State) : unlessTwoWriters bad eff s = runPlain .plain eff s :=
  if_neg (mt hbad.1 h)

/-! ## Faults of the accesses (R82 to R85, R93) -/

section
variable {j : Instr} {g : Dag} {i m : Fin 4} {s : State} {f : Fault}

/-- Every indirect data-memory read answers a fault of its access. -/
theorem exec_readsDm_fault (hj : readsDm j = some (g, i, m)) (hpass : ¬ twoWriters j) (ha : CanAdvance s)
    (hf : dmFetch g i m s = .error f) : exec j s = .fault f := by
  unfold readsDm at hj
  split at hj <;> cases hj
  · exact (exec_dmRead g _ i m s).trans (runDmRead_fault ha hf)
  · next z k d =>
    exact (unlessTwoWriters_pass (calcWrites_eq_true_iff z k d) hpass _ s).trans (runDmRead_fault ha hf)
  · next fn x d =>
    exact (unlessTwoWriters_pass (shiftWrites_eq_true_iff fn d) hpass _ s).trans (runDmRead_fault ha hf)

/-- Every program-memory read answers a fault of its access. -/
theorem exec_readsPm_fault (hj : readsPm j = some (i, m)) (hpass : ¬ twoWriters j) (ha : CanAdvance s)
    (hf : pmFetch i m s = .error f) : exec j s = .fault f := by
  unfold readsPm at hj
  split at hj <;> cases hj
  · exact (exec_pmRead _ i m s).trans (runPmRead_fault ha hf)
  · next z k d =>
    exact (unlessTwoWriters_pass (calcWrites_eq_true_iff z k d) hpass _ s).trans (runPmRead_fault ha hf)
  · next fn x d =>
    exact (unlessTwoWriters_pass (shiftWrites_eq_true_iff fn d) hpass _ s).trans (runPmRead_fault ha hf)

theorem afterStore_fault {store : State → Except Fault State} (h : store s = .error f) (clause : State → State) :
    afterStore clause store s = .error f := by
  simp only [afterStore, h]

/-- Every indirect data-memory write answers a fault of its access, which no stored value changes. -/
theorem exec_writesDm_fault (hj : writesDm j = some (g, i, m)) (ha : CanAdvance s)
    (hf : ∀ v, dmStore g v i m s = .error f) : exec j s = .fault f := by
  unfold writesDm at hj
  split at hj <;> cases hj
  · exact runPlain_fault (guard_plain s ha) ha (hf _)
  · exact runPlain_fault (guard_plain s ha) ha (hf _)
  · exact runPlain_fault (guard_plain s ha) ha (afterStore_fault (hf _) _)
  · exact runPlain_fault (guard_plain s ha) ha (afterStore_fault (hf _) _)

/-- Every program-memory write answers a fault of its access. -/
theorem exec_writesPm_fault (hj : writesPm j = some (i, m)) (ha : CanAdvance s)
    (hf : ∀ v, pmStore v i m s = .error f) : exec j s = .fault f := by
  unfold writesPm at hj
  split at hj <;> cases hj
  · exact runPlain_fault (guard_plain s ha) ha (hf _)
  · exact runPlain_fault (guard_plain s ha) ha (afterStore_fault (hf _) _)
  · exact runPlain_fault (guard_plain s ha) ha (afterStore_fault (hf _) _)

end

/-! ## The dual reads (R440, R441) -/

section
variable {clause : State → State} {pd : PdReg} {dd : DdReg} {pi pm di dm : Fin 4} {s : State} {f : Fault}

/-- What a dual read loads, program memory first (R102), beside a clause. -/
theorem withDualRead_of_reads {t u : State} {w : PWord} {v : Word} {ap ai : Addr} (hp : NextI .two pi pm s ap)
    (hd : NextI .one di dm s ai) (hpr : PmReads (dagAddr .two pi s) s w t) (hdr : DmReads (dagAddr .one di s) t v u) :
    withDualRead clause pd dd pi pm di dm s =
      .ok (setI .two pi ap (setI .one di ai
        (loadFromPm (PdReg.toDreg pd) w (writeDreg (DdReg.toDreg dd) v (clause u))))) := by
  simp only [withDualRead, (modifiedI_eq_ok_iff .one di dm s ai).2 hd, pmFetch_of_reads hp hpr,
    (memReadDm_eq_ok_iff _ t v u).2 hdr]

theorem withDualRead_circular (h : (¬ ∃ n, NextI .two pi pm s n) ∨ (¬ ∃ n, NextI .one di dm s n)) :
    withDualRead clause pd dd pi pm di dm s = .error .circular := by
  by_cases hd : ∃ n, NextI .one di dm s n
  · obtain ⟨n, hn⟩ := hd
    have hp := h.resolve_right (not_not_intro ⟨n, hn⟩)
    simp only [withDualRead, (modifiedI_eq_ok_iff .one di dm s n).2 hn, pmFetch_circular hp]
  · simp only [withDualRead, modifiedI_eq_circular hd]

/-- A fault of the program-memory half. -/
theorem withDualRead_pm_fault (hp : ∃ n, NextI .two pi pm s n) (hd : ∃ n, NextI .one di dm s n)
    (hf : memReadPm (dagAddr .two pi s) s = .error f) : withDualRead clause pd dd pi pm di dm s = .error f := by
  obtain ⟨n, hn⟩ := hd
  simp only [withDualRead, (modifiedI_eq_ok_iff .one di dm s n).2 hn, pmFetch_fault hp hf]

/-- A fault of the data-memory half, once program memory answered. -/
theorem withDualRead_dm_fault {w : PWord} {t : State} (hp : ∃ n, NextI .two pi pm s n)
    (hd : ∃ n, NextI .one di dm s n) (hpr : PmReads (dagAddr .two pi s) s w t)
    (hf : memReadDm (dagAddr .one di s) t = .error f) : withDualRead clause pd dd pi pm di dm s = .error f := by
  obtain ⟨np, hnp⟩ := hp
  obtain ⟨nd, hnd⟩ := hd
  simp only [withDualRead, (modifiedI_eq_ok_iff .one di dm s nd).2 hnd, pmFetch_of_reads hnp hpr, hf]

theorem exec_readsBoth_fault {j : Instr} (hj : readsBoth j = some ((pi, pm), (di, dm))) (ha : CanAdvance s)
    (hf : ∀ clause pd dd, withDualRead clause pd dd pi pm di dm s = .error f) : exec j s = .fault f := by
  unfold readsBoth at hj
  split at hj <;> cases hj <;> exact runPlain_fault (guard_plain s ha) ha (hf _ _ _)

/-- A program-memory read leaves the map and the words of data memory. -/
theorem pmReads_keeps_dm {a : Addr} {w : PWord} {t : State} (h : PmReads a s w t) : t.cfg = s.cfg ∧ t.dm = s.dm := by
  obtain ⟨rfl, -⟩ | ⟨-, rfl⟩ := memReadPm_inv a s w t ((memReadPm_eq_ok_iff a s w t).2 h) <;> exact ⟨rfl, rfl⟩

end

/-! ## All faults together -/

section
variable {j : Instr} {g : Dag} {i m pi pm di dm : Fin 4} {s : State}

theorem exec_dm_circular (hpass : ¬ twoWriters j) (ha : CanAdvance s)
    (hj : readsDm j = some (g, i, m) ∨ writesDm j = some (g, i, m)) (h : ¬ ∃ n, NextI g i m s n) :
    exec j s = .fault .circular := by
  obtain hj | hj := hj
  · exact exec_readsDm_fault hj hpass ha (dmFetch_circular h)
  · exact exec_writesDm_fault hj ha (dmStore_circular h)

theorem exec_dm_unmapped (hpass : ¬ twoWriters j) (ha : CanAdvance s)
    (hj : readsDm j = some (g, i, m) ∨ writesDm j = some (g, i, m)) (hn : ∃ n, NextI g i m s n)
    (h : backing s.cfg.dmMap (dagAddr g i s).toNat = none) :
    exec j s = .fault (.unmappedAccess .dm (dagAddr g i s)) := by
  obtain hj | hj := hj
  · exact exec_readsDm_fault hj hpass ha (dmFetch_fault hn (memReadDm_unmapped h))
  · exact exec_writesDm_fault hj ha fun v => dmStore_fault hn (memWriteDm_refused (.inl h) v)

theorem exec_pm_circular (hpass : ¬ twoWriters j) (ha : CanAdvance s)
    (hj : readsPm j = some (i, m) ∨ writesPm j = some (i, m)) (h : ¬ ∃ n, NextI .two i m s n) :
    exec j s = .fault .circular := by
  obtain hj | hj := hj
  · exact exec_readsPm_fault hj hpass ha (pmFetch_circular h)
  · exact exec_writesPm_fault hj ha (pmStore_circular h)

theorem exec_pm_unmapped (hpass : ¬ twoWriters j) (ha : CanAdvance s)
    (hj : readsPm j = some (i, m) ∨ writesPm j = some (i, m)) (hn : ∃ n, NextI .two i m s n)
    (h : backing s.cfg.pmMap (dagAddr .two i s).toNat = none) :
    exec j s = .fault (.unmappedAccess .pm (dagAddr .two i s)) := by
  obtain hj | hj := hj
  · exact exec_readsPm_fault hj hpass ha (pmFetch_fault hn (memReadPm_unmapped h))
  · exact exec_writesPm_fault hj ha fun v => pmStore_fault hn (memWritePm_refused (.inl h) _)

/-- A fault of the data-memory half of a dual read, seen in the state before the instruction. -/
theorem exec_readsBoth_dm_fault (hj : readsBoth j = some ((pi, pm), (di, dm))) (ha : CanAdvance s)
    (hp : ∃ n, NextI .two pi pm s n) (hd : ∃ n, NextI .one di dm s n) {w : PWord} {t : State}
    (hpr : PmReads (dagAddr .two pi s) s w t) :
    (backing s.cfg.dmMap (dagAddr .one di s).toNat = none →
      exec j s = .fault (.unmappedAccess .dm (dagAddr .one di s))) ∧
    (backing s.cfg.dmMap (dagAddr .one di s).toNat = some .ram ∨
        backing s.cfg.dmMap (dagAddr .one di s).toNat = some .rom →
      Memory.readDm s.dm (dagAddr .one di s) = none → exec j s = .fault (.uninitRead .dm (dagAddr .one di s))) := by
  obtain ⟨hcfg, hdm⟩ := pmReads_keeps_dm hpr
  rw [← hcfg, ← hdm]
  exact ⟨fun h => exec_readsBoth_fault hj ha fun _ _ _ => withDualRead_dm_fault hp hd hpr (memReadDm_unmapped h),
    fun h hnone => exec_readsBoth_fault hj ha fun _ _ _ =>
      withDualRead_dm_fault hp hd hpr (memReadDm_unwritten h hnone)⟩

end

/-- Settles O26: the faults of the accesses, in the order of R459. -/
theorem memoryFaults : Obligations.MemoryFaults := by
  unfold Obligations.MemoryFaults
  refine ⟨fun r a s ha hr => exec_dmWriteDirect_refused ha hr, fun d a s ha hd => ⟨fun h => ?_, fun h hnone => ?_⟩,
    fun j g i m s ha hpass hj => ⟨exec_dm_circular hpass ha hj, fun hn => ⟨exec_dm_unmapped hpass ha hj hn, ?_, ?_⟩⟩,
    fun j i m s ha hpass hj => ⟨exec_pm_circular hpass ha hj, fun hn => ⟨exec_pm_unmapped hpass ha hj hn, ?_, ?_⟩⟩,
    fun j pi pm di dm s ha hj => ⟨fun h => ?_, fun hp hd => ⟨fun h => ?_, fun h hnone => ?_, fun w t hpr => ?_⟩⟩⟩
  · exact exec_dmReadDirect_fault ha hd (memReadDm_unmapped h)
  · exact exec_dmReadDirect_fault ha hd (memReadDm_unwritten h hnone)
  · exact fun hrom hw => exec_writesDm_fault hw ha fun v => dmStore_fault hn (memWriteDm_refused (.inr hrom) v)
  · exact fun h hnone hr => exec_readsDm_fault hr hpass ha (dmFetch_fault hn (memReadDm_unwritten h hnone))
  · exact fun hrom hw => exec_writesPm_fault hw ha fun v => pmStore_fault hn (memWritePm_refused (.inr hrom) _)
  · exact fun h hnone hr => exec_readsPm_fault hr hpass ha (pmFetch_fault hn (memReadPm_unwritten h hnone))
  · exact exec_readsBoth_fault hj ha fun _ _ _ => withDualRead_circular h
  · exact exec_readsBoth_fault hj ha fun _ _ _ => withDualRead_pm_fault hp hd (memReadPm_unmapped h)
  · exact exec_readsBoth_fault hj ha fun _ _ _ => withDualRead_pm_fault hp hd (memReadPm_unwritten h hnone)
  · exact exec_readsBoth_dm_fault hj ha hp hd hpr

end Sys2Proof.Machine
end

section
/-!
A computation clause (R421) in the statements' terms: every ALU function (R204), the MAC function on integers (R252), its
rounding (R255) and overflow, and the commit of both.
-/

namespace Sys2Proof.Machine

open Sys2Proof.Spec

/-! ## Bits of an integer -/

/-- A multiple of `2 ^ (k + 1)` does not change bit `k` of an integer. -/
theorem ediv_two_pow_parity (z c : Int) (k : Nat) : (z + 2 ^ k * (2 * c)) / 2 ^ k % 2 = z / 2 ^ k % 2 := by
  rw [Int.add_mul_ediv_left _ _ (by positivity)]
  omega

/-- Bit `k` of an integer's low bits. -/
theorem getLsbD_ofInt {n k : Nat} (hk : k < n) (z : Int) :
    (BitVec.ofInt n z).getLsbD k = decide (z / 2 ^ k % 2 = 1) := by
  have hpow : (2 : Int) ^ n = 2 ^ k * (2 * 2 ^ (n - k - 1)) := by
    rw [← pow_succ', ← pow_add]
    congr 1
    omega
  have hmod : z % 2 ^ n / 2 ^ k % 2 = z / 2 ^ k % 2 := by
    have hz : z = z % 2 ^ n + 2 ^ k * (2 * (2 ^ (n - k - 1) * (z / 2 ^ n))) := by
      rw [← mul_assoc 2, ← mul_assoc, ← hpow]
      exact (Int.emod_add_mul_ediv z _).symm
    conv_rhs => rw [hz, ediv_two_pow_parity]
  have hnn : 0 ≤ z % 2 ^ n := Int.emod_nonneg _ (by positivity)
  rw [BitVec.getLsbD, BitVec.toNat_ofInt, Nat.testBit_eq_decide_div_mod_eq, decide_eq_decide, ← hmod]
  push_cast
  lift z % 2 ^ n to Nat using hnn with q
  rw [Int.toNat_natCast]
  exact_mod_cast Iff.rfl

/-- Clearing a bit that is clear changes nothing. -/
theorem setBitTo_false_of_clear {w n : Nat} {v : BitVec w} (hn : n < w) (h : v.getLsbD n = false) :
    setBitTo v n false = v := by
  apply BitVec.eq_of_getLsbD_eq
  intro k _
  rw [getLsbD_setBitTo _ _ _ _ hn]
  split
  · next hk => rw [hk, h]
  · rfl

/-- Clearing a bit that is set takes its weight away. -/
theorem setBitTo_false_of_set {w n : Nat} {v : BitVec w} (hn : n < w) (h : v.getLsbD n = true) :
    setBitTo v n false = v - BitVec.twoPow w n := by
  have hsum : setBitTo v n false + BitVec.twoPow w n = v := by
    have hbit (k : Nat) : (BitVec.twoPow w n).getLsbD k = decide (k = n) := by
      rw [BitVec.getLsbD_twoPow, decide_eq_true hn, Bool.true_and]
      exact decide_eq_decide.2 eq_comm
    have hdisjoint : setBitTo v n false &&& BitVec.twoPow w n = 0 := by
      apply BitVec.eq_of_getLsbD_eq
      intro k _
      rw [BitVec.getLsbD_and, getLsbD_setBitTo _ _ _ _ hn, hbit]
      split <;> simp [*]
    rw [BitVec.add_eq_or_of_and_eq_zero _ _ hdisjoint]
    apply BitVec.eq_of_getLsbD_eq
    intro k _
    rw [BitVec.getLsbD_or, getLsbD_setBitTo _ _ _ _ hn, hbit]
    split <;> simp [*]
  rw [← hsum, BitVec.add_sub_cancel, hsum]

/-! ## Operands -/

theorem aluXVal_eq_xopAlu (x : AluX) (s : State) : aluXVal x s = xopAlu x s := by
  cases x <;> rfl

theorem aluYVal_eq_yopAlu (y : AluY) (s : State) : aluYVal y s = yopAlu y s := by
  cases y <;> rfl

theorem macXVal_eq_xopMac (x : MacX) (s : State) : macXVal x s = xopMac x s := by
  cases x <;> rfl

theorem macYVal_eq_yopMac (y : MacY) (s : State) : macYVal y s = yopMac y s := by
  cases y <;> rfl

theorem shXVal_eq_xopShift (x : ShX) (s : State) : shXVal x s = xopShift x s := by
  cases x <;> rfl

/-! ## The ALU functions (R204) -/

/-- ABS (R226). -/
theorem aluAbs_eq_absOut (x : Word) : aluAbs x = absOut x := by
  have hx := x.isLt
  have hr : (if x.msb then -x else x) = BitVec.ofNat 16 x.toInt.natAbs := by
    apply BitVec.eq_of_toNat_eq
    rw [word_toInt_eq, word_msb_eq, BitVec.toNat_ofNat]
    split <;> (try rw [BitVec.toNat_neg]) <;> omega
  have hov : (x == 0x8000) = decide (x.toInt = -32768) := by
    rw [Bool.beq_eq_decide_eq, decide_eq_decide, ← BitVec.toNat_inj, word_toInt_eq, word_msb_eq,
      show (0x8000 : Word).toNat = 32768 from rfl]
    simp only [decide_eq_true_eq]
    split <;> omega
  simp only [aluAbs, absOut, hr, hov]
  rw [BitVec.msb_eq_toInt]

/-- The functions of the machine are those of the statements. -/
theorem alu_eq_aluOut (f : AluFn) (x y : Word) (c : Bool) : alu f x y c = aluOut f x y c := by
  cases f with
  | incY | addC | add => exact aluAdd_eq_sumOut _ _ _
  | negY | subC | sub | rsub | rsubC => exact aluAdd_not_eq_diffOut _ _ _
  | decY => exact alu_pass_eq_aluOut (.inr (.inr rfl)) y c
  | abs => exact aluAbs_eq_absOut x
  | passY | notY | notX | and | or | xor => rfl

/-! ## The MAC function (R252) -/

theorem macProduct_eq (fmt : MacFmt) (m : Bool) (x y : Word) :
    macProduct fmt m x y = operandInt (fmt == .ss || fmt == .su || fmt == .rnd) x *
      operandInt (fmt == .ss || fmt == .us || fmt == .rnd) y * (if m then 1 else 2) := by
  have hplace (p : Int) : (if m then p else 2 * p) = p * (if m then 1 else 2) := by
    cases m
    · exact mul_comm _ _
    · exact (mul_one p).symm
  unfold macProduct
  rw [hplace]
  cases fmt <;> rfl

/-- MR as a number (R22): MR2 carries the sign. -/
theorem toInt_mrVal (s : State) :
    (mrVal s).toInt =
      (active s).mr2.toInt * 4294967296 + (active s).mr1.toNat * 65536 + (active s).mr0.toNat := by
  change ((active s).mr2 ++ (active s).mr1 ++ (active s).mr0).toInt = _
  rw [BitVec.toInt_append, BitVec.toInt_append, if_neg (by decide), if_neg (by decide)]
  ring

/-- Rounding adds half a unit, but for the unbiased tie below an odd multiple, which goes down (R255). -/
theorem rounded_eq (biased : Bool) (z : Int) :
    rounded biased z =
      if z % 65536 = 32768 ∧ biased = false ∧ z / 65536 % 2 = 0 then z - 32768 else z + 32768 := by
  unfold rounded
  dsimp only
  split
  · rw [if_neg (by omega)]
    omega
  · split <;> omega

/-- Rounding (R255): adding 1 at bit 15 and clearing bit 16 at an unbiased tie is rounding to the nearest multiple. -/
theorem macRound_ofInt (biased : Bool) (z : Int) :
    macRound biased (BitVec.ofInt 40 z) = BitVec.ofInt 40 (rounded biased z) := by
  have hsum : BitVec.ofInt 40 z + 0x8000 = BitVec.ofInt 40 (z + 32768) := (BitVec.ofInt_add z 32768).symm
  have hlow : ((BitVec.ofInt 40 z).extractLsb' 0 16 == 0x8000) = decide (z % 65536 = 32768) := by
    rw [Bool.beq_eq_decide_eq, decide_eq_decide, ← BitVec.toNat_inj, BitVec.extractLsb'_toNat, BitVec.toNat_ofInt,
      show (0x8000 : Word).toNat = 32768 from rfl, Nat.shiftRight_zero]
    omega
  have hbit : (BitVec.ofInt 40 (z + 32768)).getLsbD 16 = decide ((z + 32768) / 65536 % 2 = 1) :=
    getLsbD_ofInt (by decide) _
  simp only [macRound, hsum, hlow, rounded_eq, Bool.and_eq_true, decide_eq_true_eq, Bool.not_eq_true', ← and_assoc]
  split
  · next htie =>
    by_cases heven : z / 65536 % 2 = 0
    · rw [if_pos ⟨htie, heven⟩, setBitTo_false_of_set (by decide) (hbit.trans (decide_eq_true (by omega))),
        show z + 32768 = z - 32768 + 65536 by omega, BitVec.ofInt_add]
      exact BitVec.add_sub_cancel _ _
    · rw [if_neg fun h => heven h.2, setBitTo_false_of_clear (by decide) (hbit.trans (decide_eq_false (by omega)))]
  · next htie => rw [if_neg fun h => htie h.1]

theorem macOf_eq_macOut (op : MacOp) (fmt : MacFmt) (x y : Word) (s : State) :
    macOf op fmt x y s = macOut op fmt x y s := by
  cases op with
  | mul | acc | sub =>
    simp only [macOf, macResult, macOut, macProduct_eq, toInt_mrVal, mModeOf, biasedRounding, macRound_ofInt]

/-- MV (R252): the nine upper bits are all equal exactly when the result fits in 32 bits. -/
theorem macOverflow_eq_mvOut (res : Acc) : macOverflow res = mvOut res := by
  have hres := res.isLt
  have hbits : (res.extractLsb' 31 9).toNat = res.toNat / 2147483648 := by
    rw [BitVec.extractLsb'_toNat, Nat.shiftRight_eq_div_pow]
    omega
  have hint : res.toInt = (res.toNat : Int) - (if 549755813888 ≤ res.toNat then 1099511627776 else 0) := by
    rw [BitVec.toInt_eq_toNat_cond]
    split <;> split <;> omega
  unfold macOverflow mvOut
  rw [Bool.eq_iff_iff]
  simp only [Bool.not_eq_true', Bool.or_eq_false_iff, beq_eq_false_iff_ne, ne_eq, ← BitVec.toNat_inj, hbits, hint,
    BitVec.toNat_allOnes, show (0 : BitVec 9).toNat = 0 from rfl, decide_eq_true_eq]
  split <;> omega

/-! ## The commit of a MAC result (R254) -/

/-- One bit of ASTAT replaced (R38). -/
theorem setBitTo_eq_astatWith (f : BitVec 8) {n : Nat} (hn : n < 8) (b : Bool) : setBitTo f n b = astatWith f n b := by
  apply BitVec.eq_of_getLsbD_eq
  intro k hk
  rw [getLsbD_setBitTo _ _ _ _ hn, astatWith, getLsbD_astatOf _ _ _ _ _ _ _ _ hk]
  interval_cases k <;> rfl

theorem commitMac_eq_putMac (z : Dest) (res : Acc) (mv : Bool) (s : State) : commitMac z res mv s = putMac z res mv s := by
  unfold commitMac putMac withMv
  rw [setBitTo_eq_astatWith _ (by decide)]
  cases z <;> exact mapBank_eq_setActive _ _

/-! ## The clause -/

/-- A memory access leaves the operands of a computation. -/
theorem compute_accessed {s u : State} (h : Accessed s u) (z : Dest) (k : Calc) : compute z k s u = compute z k u u := by
  obtain ⟨_, _, _, _, _, rfl⟩ := h
  cases k <;> rfl

theorem compute_self_eq_putCalc (z : Dest) (k : Calc) (s : State) : compute z k s s = putCalc z k s := by
  cases k with
  | alu f x y =>
    simp only [compute, aluXVal_eq_xopAlu, aluYVal_eq_yopAlu, alu_eq_aluOut, commitAlu_eq_putAlu]
    rfl
  | mac op fmt x y =>
    by_cases hzero : op = .mul ∧ y = .zero
    · obtain ⟨rfl, rfl⟩ := hzero
      exact (compute_mul_zero z fmt x s s).trans (commitMac_eq_putMac z 0 false s)
    · have hput : putCalc z (.mac op fmt x y) s = macEff op fmt z (xopMac x) (yopMac y) s := by
        cases op with
        | mul => exact if_neg fun hy => hzero ⟨rfl, hy⟩
        | acc | sub => rfl
      simp only [hput, compute, macFormat, if_neg hzero, macXVal_eq_xopMac, macYVal_eq_yopMac, macOf_eq_macOut,
        macOverflow_eq_mvOut, commitMac_eq_putMac, macEff]

/-- A computation beside a memory access, on the operands before it (R420, R421). -/
theorem compute_eq_putCalc {s u : State} (h : Accessed s u) (z : Dest) (k : Calc) : compute z k s u = putCalc z k u :=
  (compute_accessed h z k).trans (compute_self_eq_putCalc z k u)

theorem compute_keepsSequencer (z : Dest) (k : Calc) (s : State) : KeepsSequencer (compute z k s) := by
  intro u
  cases k with
  | alu f x y => exact ⟨commitAlu_pc _ _ _, commitAlu_loopStack _ _ _, commitAlu_pcStack _ _ _⟩
  | mac op fmt x y => exact ⟨commitMac_pc _ _ _ _, commitMac_loopStack _ _ _ _, commitMac_pcStack _ _ _ _⟩

/-- A computation and a post-modify do not meet. -/
theorem compute_setI (z : Dest) (k : Calc) (s : State) (g : Dag) (i : Fin 4) (a : Addr) (u : State) :
    compute z k s (setI g i a u) = setI g i a (compute z k s u) := by
  cases k <;> cases z <;> rfl

end Sys2Proof.Machine
end

section
/-!
A shifter clause (R421) in the statements' terms: the shift array bit by bit (R281), the leading bits and the exponent
(R283, R292), and the effect of every function (R285 to R295).
-/

namespace Sys2Proof.Machine

open Sys2Proof.Spec

/-! ## The shift array (R281) -/

/-- The input with its extension to the left, as a number. -/
def extended (xb : Bool) (x : Word) : Int := (x.toNat : Int) - (if xb then 65536 else 0)

/-- Bit `j` of the extended input: the input's own, or the extension. -/
theorem extended_bit (xb : Bool) (x : Word) (j : Nat) :
    decide (extended xb x / 2 ^ j % 2 = 1) = if 16 ≤ j then xb else x.getLsbD j := by
  have hx : (x.toNat : Int) < 65536 := by exact_mod_cast x.isLt
  split
  · next hj =>
    have hpow : (65536 : Int) ≤ 2 ^ j := le_trans (by norm_num) (pow_le_pow_right₀ (by norm_num : (1 : Int) ≤ 2) hj)
    cases xb with
    | false => simp [extended, Int.ediv_eq_zero_of_lt (Int.natCast_nonneg _) (lt_of_lt_of_le hx hpow)]
    | true =>
      have hquot : extended true x / 2 ^ j = -1 := by
        rw [Int.ediv_eq_iff_of_pos (by omega)]
        simp only [extended, if_true]
        omega
      rw [hquot]
      rfl
  · next hj =>
    have hparity : extended xb x / 2 ^ j % 2 = (x.toNat : Int) / 2 ^ j % 2 := by
      have hpow : (65536 : Int) = 2 ^ j * (2 * 2 ^ (15 - j)) := by
        rw [← pow_succ', ← pow_add, show j + (15 - j + 1) = 16 by omega]
        rfl
      cases xb with
      | false => simp [extended]
      | true =>
        have hext : extended true x = x.toNat + 2 ^ j * (2 * -2 ^ (15 - j)) := by
          rw [mul_neg, mul_neg, ← hpow]
          rfl
        rw [hext, ediv_two_pow_parity]
    rw [hparity, BitVec.getLsbD, Nat.testBit_eq_decide_div_mod_eq, decide_eq_decide]
    exact_mod_cast Iff.rfl

/-- A shift up by `n`: zeros enter from the right. -/
theorem mul_two_pow_bit (z : Int) (n k : Nat) :
    decide (z * 2 ^ n / 2 ^ k % 2 = 1) = if k < n then false else decide (z / 2 ^ (k - n) % 2 = 1) := by
  split
  · next hk =>
    have hmul : z * 2 ^ n = 0 + 2 ^ k * (2 * (z * 2 ^ (n - k - 1))) := by
      obtain ⟨d, rfl⟩ := Nat.exists_eq_add_of_lt hk
      rw [show k + d + 1 - k - 1 = d by omega, pow_succ, pow_add]
      ring
    rw [hmul, ediv_two_pow_parity]
    simp
  · next hk =>
    rw [show k = n + (k - n) by omega, pow_add, mul_comm z, Int.mul_ediv_mul_of_pos _ _ (by positivity)]
    simp

/-- A shift down by `n`. -/
theorem ediv_two_pow_bit (z : Int) (n k : Nat) :
    decide (z / 2 ^ n / 2 ^ k % 2 = 1) = decide (z / 2 ^ (k + n) % 2 = 1) := by
  rw [Int.ediv_ediv_of_nonneg (by positivity), ← pow_add, add_comm]

/-- The shift array moves the input up by `e` bits. -/
theorem shiftedBits_shift32 (x : Word) (c : Int) (hi xb : Bool) {e : Int} (he : c + (if hi then 16 else 0) = e) :
    ShiftedBits x e xb (shift32 x c hi xb) := by
  intro k hk
  have hbit : (shift32 x c hi xb).getLsbD k =
      decide ((if 0 ≤ e then extended xb x * 2 ^ e.toNat else extended xb x / 2 ^ (-e).toNat) / 2 ^ k % 2 = 1) := by
    unfold shift32
    dsimp only
    rw [he]
    exact getLsbD_ofInt hk _
  rw [hbit]
  by_cases hup : 0 ≤ e
  · obtain ⟨n, rfl⟩ := Int.eq_ofNat_of_zero_le hup
    rw [if_pos hup, Int.toNat_natCast, mul_two_pow_bit, extended_bit]
    by_cases hlt : k < n
    · rw [if_pos hlt, if_pos (Int.ofNat_lt.2 hlt)]
    · rw [if_neg hlt, if_neg (mt Int.ofNat_lt.1 hlt), show ((k : Int) - n).toNat = k - n by omega]
      exact if_congr (by omega) rfl rfl
  · obtain ⟨n, hn⟩ := Int.eq_ofNat_of_zero_le (a := -e) (by omega)
    obtain rfl : e = -n := by omega
    rw [if_neg hup, neg_neg, Int.toNat_natCast, ediv_two_pow_bit, extended_bit,
      if_neg (show ¬ (k : Int) < -n by omega),
      show ((k : Int) - -n).toNat = k + n by omega]
    exact if_congr (by omega) rfl rfl

/-! ## The commit of a shift (R282) -/

theorem shifts_commitShift {x : Word} {e : Int} {xb : Bool} {out : BitVec 32} (h : ShiftedBits x e xb out) (orSr : Bool)
    (s : State) : Shifts x e xb orSr s (commitShift orSr out s) := by
  refine ⟨out, h, ?_⟩
  have hwords (a b : Word) (k : Nat) :
      (a ++ b : BitVec 32).getLsbD k = if k < 16 then b.getLsbD k else a.getLsbD (k - 16) := BitVec.getLsbD_append
  have hsr1 (a b : Word) : ((a ++ b : BitVec 32) ||| out).extractLsb' 16 16 = a ||| out.extractLsb' 16 16 := by
    apply BitVec.eq_of_getLsbD_eq
    intro k hk
    simp only [BitVec.getLsbD_extractLsb', BitVec.getLsbD_or, hwords, hk, decide_true, Bool.true_and]
    rw [if_neg (by omega), Nat.add_sub_cancel_left]
  have hsr0 (a b : Word) : ((a ++ b : BitVec 32) ||| out).extractLsb' 0 16 = b ||| out.extractLsb' 0 16 := by
    apply BitVec.eq_of_getLsbD_eq
    intro k hk
    simp only [BitVec.getLsbD_extractLsb', BitVec.getLsbD_or, hwords, hk, decide_true, Bool.true_and, zero_add, if_true]
  unfold commitShift
  rw [mapBank_eq_setActive]
  cases orSr with
  | false => rfl
  | true => simp only [bankWithSr, if_true, hsr1, hsr0]

/-! ## Leading bits and the exponent (R283, R292) -/

theorem leadingRun_spec (b : Bool) (x : Word) (n : Nat) :
    leadingRun b x n ≤ n ∧ (∀ j, j < leadingRun b x n → x.getLsbD (n - 1 - j) = b) ∧
      (leadingRun b x n < n → x.getLsbD (n - 1 - leadingRun b x n) ≠ b) := by
  induction n with
  | zero => simp [leadingRun]
  | succ n ih =>
    obtain ⟨hle, hrun, hend⟩ := ih
    unfold leadingRun
    split
    · next hbit =>
      refine ⟨by omega, fun j hj => ?_, fun hlt => ?_⟩
      · cases j with
        | zero => exact hbit
        | succ j =>
          rw [show n + 1 - 1 - (j + 1) = n - 1 - j by omega]
          exact hrun j (by omega)
      · rw [show n + 1 - 1 - (leadingRun b x n + 1) = n - 1 - leadingRun b x n by omega]
        exact hend (by omega)
    · next hbit => exact ⟨by omega, nofun, fun _ => hbit⟩

theorem leadingBits_leadingRun (b : Bool) (x : Word) : LeadingBits b x (leadingRun b x 16) := leadingRun_spec b x 16

/-- A number without its sign: the number itself, or its complement. -/
def withoutSign (x : Word) : Word := if x.msb then ~~~x else x

theorem getLsbD_withoutSign (x : Word) {k : Nat} (hk : k < 16) : (withoutSign x).getLsbD k = (x.getLsbD k != x.msb) := by
  unfold withoutSign
  split <;> simp [*]

theorem toInt_eq_withoutSign (x : Word) :
    x.toInt = if x.msb then -1 - ((withoutSign x).toNat : Int) else (withoutSign x).toNat := by
  have hx := x.isLt
  rw [word_toInt_eq]
  unfold withoutSign
  split
  · rw [BitVec.toNat_not]
    omega
  · omega

/-- With `k` leading sign bits the rest has `16 - k` bits, the highest of them set. -/
theorem withoutSign_range {x : Word} {k : Nat} (h : LeadingBits x.msb x k) :
    (withoutSign x).toNat < 2 ^ (16 - k) ∧ (k < 16 → 2 ^ (15 - k) ≤ (withoutSign x).toNat) := by
  obtain ⟨hle, hrun, hend⟩ := h
  refine ⟨Nat.lt_pow_two_of_testBit _ fun i hi => ?_, fun hk => Nat.ge_two_pow_of_testBit ?_⟩
  · by_cases h16 : i < 16
    · have hsign := hrun (15 - i) (by omega)
      rw [show 15 - (15 - i) = i by omega] at hsign
      exact (getLsbD_withoutSign x h16).trans (by simp [hsign])
    · exact BitVec.getLsbD_of_ge _ i (by omega)
  · exact (getLsbD_withoutSign x (by omega)).trans (by simpa using hend hk)

theorem isExponent_expHi (x : Word) : IsExponent x (expHi x) := by
  have hlead := leadingBits_leadingRun x.msb x
  unfold expHi
  generalize leadingRun x.msb x 16 = k at hlead ⊢
  obtain ⟨hlt, hge⟩ := withoutSign_range hlead
  obtain ⟨hle, hrun, hend⟩ := hlead
  have hpos : 0 < k := by
    by_contra h0
    obtain rfl : k = 0 := by omega
    exact hend (by omega) (BitVec.msb_eq_getLsbD_last x).symm
  have hint := toInt_eq_withoutSign x
  unfold IsExponent
  rw [hint]
  generalize (withoutSign x).toNat = u at hlt hge
  refine ⟨by omega, by omega, ?_, fun hk => ?_⟩
  · rw [show (-(1 - (k : Int))).toNat = k - 1 by omega]
    have hpow : (2 : Int) ^ (16 - k) * 2 ^ (k - 1) = 32768 := by
      rw [← pow_add, show 16 - k + (k - 1) = 15 by omega]
      rfl
    have hsucc : (u : Int) + 1 ≤ 2 ^ (16 - k) := by exact_mod_cast hlt
    have hscale : (0 : Int) < 2 ^ (k - 1) := by positivity
    split <;> constructor <;> nlinarith
  · rw [show (1 - (1 - (k : Int))).toNat = k by omega]
    have hpow : (2 : Int) ^ (15 - k) * 2 ^ k = 32768 := by
      rw [← pow_add, show 15 - k + k = 15 by omega]
      rfl
    have htop : (2 : Int) ^ (15 - k) ≤ u := by exact_mod_cast hge (by omega)
    have hscale : (0 : Int) < 2 ^ k := by positivity
    split
    · exact .inl (by nlinarith)
    · exact .inr (by nlinarith)

/-! ## The functions (R285 to R295) -/

/-- A flag and a register of the bank are written in either order. -/
theorem setActive_withAstat (b : Bank) (f : BitVec 8) (s : State) :
    { setActive b s with astat := f } = setActive b { s with astat := f } := by
  unfold setActive
  split <;> rfl

theorem writeSe_withSs (v : Int) (ss : Bool) (s : State) :
    { writeSe v s with astat := withSs s.astat ss } = putSeSs v ss s := by
  unfold writeSe putSeSs withSs
  rw [setBitTo_eq_astatWith _ (by decide), mapBank_eq_setActive, setActive_withAstat]

theorem doExpHi_eq (x : Word) (s : State) : doExpHi x s = putSeSs (expHi x) (x.getLsbD 15) s := by
  rw [doExpHi, writeSe_withSs, BitVec.msb_eq_getLsbD_last]

theorem setActive_active (s : State) : setActive (active s) s = s := by
  unfold setActive active
  split <;> rfl

/-- What a shifter clause does, on the input `x` (R421). -/
theorem shEffect_shiftClause (f : ShFn) (x : Word) (s : State) : ShEffect f x s (shiftClause f x s) := by
  cases f with
  | lshiftHi | lshiftHiOr => exact shifts_commitShift (shiftedBits_shift32 x _ true false rfl) _ s
  | lshiftLo | lshiftLoOr => exact shifts_commitShift (shiftedBits_shift32 x _ false false (add_zero _)) _ s
  | ashiftHi | ashiftHiOr =>
    exact shifts_commitShift (BitVec.msb_eq_getLsbD_last x ▸ shiftedBits_shift32 x _ true x.msb rfl) _ s
  | ashiftLo | ashiftLoOr =>
    exact shifts_commitShift (BitVec.msb_eq_getLsbD_last x ▸ shiftedBits_shift32 x _ false x.msb (add_zero _)) _ s
  | normHi | normHiOr => exact shifts_commitShift (shiftedBits_shift32 x _ true _ (neg_add_eq_sub _ _)) _ s
  | normLo | normLoOr => exact shifts_commitShift (shiftedBits_shift32 x _ false _ (add_zero _)) _ s
  | expHi => exact ⟨expHi x, isExponent_expHi x, doExpHi_eq x s⟩
  | expHix =>
    change if avOf s.astat = true then doExpHix x s = putSeSs 1 (!x.getLsbD 15) s
      else ∃ e, IsExponent x e ∧ doExpHix x s = putSeSs e (x.getLsbD 15) s
    unfold doExpHix
    split
    · rw [writeSe_withSs, BitVec.msb_eq_getLsbD_last]
    · exact ⟨expHi x, isExponent_expHi x, doExpHi_eq x s⟩
  | expLo =>
    have heq : shiftClause .expLo x s =
        setActive { active s with se := expLoSe x (active s).se (s.astat.getLsbD 7) } s :=
      mapBank_eq_setActive (fun b => { b with se := expLoSe x b.se (ssOf s.astat) }) s
    rw [heq]
    unfold ShEffect expLoSe
    dsimp only
    split
    · exact ⟨_, leadingBits_leadingRun _ x, rfl⟩
    · exact setActive_active s
  | expAdj => exact ⟨expHi x, isExponent_expHi x, mapBank_eq_setActive (fun b => { b with sb := expAdjSb x b.sb }) s⟩

theorem shiftClause_keepsSequencer (f : ShFn) (x : Word) : KeepsSequencer (shiftClause f x) := by
  intro s
  cases f with
  | expHix =>
    change (doExpHix x s).pc = s.pc ∧ (doExpHix x s).loopStack = s.loopStack ∧ (doExpHix x s).pcStack = s.pcStack
    unfold doExpHix
    split <;> exact ⟨rfl, rfl, rfl⟩
  | _ => exact ⟨rfl, rfl, rfl⟩

/-- A shifter function and a post-modify do not meet. -/
theorem shiftClause_setI (f : ShFn) (x : Word) (g : Dag) (i : Fin 4) (a : Addr) (s : State) :
    shiftClause f x (setI g i a s) = setI g i a (shiftClause f x s) := by
  cases f with
  | expHix =>
    change doExpHix x (setI g i a s) = setI g i a (doExpHix x s)
    unfold doExpHix
    rw [setI_astat]
    split <;> rfl
  | _ => rfl

end Sys2Proof.Machine
end

section
/-!
The multifunction instructions with memory accesses (R430 to R432, R436 to R441): a computation or a shifter clause beside
a read, a store or the two reads of type 1, on the operands before the instruction (R420).
-/

namespace Sys2Proof.Machine

open Sys2Proof.Spec

/-! ## Beside a read (R430 to R432) -/

/-- Settles O43: the clause on the state after the access, which leaves every operand. -/
theorem computeWithMemoryRead : Obligations.ComputeWithMemoryRead := by
  unfold Obligations.ComputeWithMemoryRead
  refine ⟨fun g z k d i m s u v a hpass ha hn hr => ?_, fun z k d i m s u w a hpass ha hn hr => ?_,
    fun g f x d i m s u v a hpass ha hn hr => ?_, fun f x d i m s u w a hpass ha hn hr => ?_⟩
  · have hu : Accessed s u := memReadDm_accessed ((memReadDm_eq_ok_iff _ s v u).2 hr)
    rw [← compute_eq_putCalc hu]
    refine (unlessTwoWriters_pass (calcWrites_eq_true_iff z k d) hpass _ s).trans ?_
    exact runDmRead_next (clause := compute z k) (compute_keepsSequencer z k s) ha hn hr
  · have hu : Accessed s u := memReadPm_accessed ((memReadPm_eq_ok_iff _ s w u).2 hr)
    rw [← compute_eq_putCalc hu]
    refine (unlessTwoWriters_pass (calcWrites_eq_true_iff z k d) hpass _ s).trans ?_
    exact runPmRead_next (clause := compute z k) (compute_keepsSequencer z k s) ha hn hr
  · rw [← shXVal_eq_xopShift]
    refine ⟨_, shEffect_shiftClause f (shXVal x s) u, ?_⟩
    refine (unlessTwoWriters_pass (shiftWrites_eq_true_iff f d) hpass _ s).trans ?_
    exact runDmRead_next (clause := fun t => shiftClause f (shXVal x t)) (shiftClause_keepsSequencer f _) ha hn hr
  · rw [← shXVal_eq_xopShift]
    refine ⟨_, shEffect_shiftClause f (shXVal x s) u, ?_⟩
    refine (unlessTwoWriters_pass (shiftWrites_eq_true_iff f d) hpass _ s).trans ?_
    exact runPmRead_next (clause := fun t => shiftClause f (shXVal x t)) (shiftClause_keepsSequencer f _) ha hn hr

/-! ## Beside a store (R436 to R438) -/

section
variable {s u : State} {g : Dag} {i : Fin 4} {a : Addr}

/-- A clause after a store with its post-modify: the clause does not meet I. -/
theorem runStore_next {clause : State → State → State} {store : State → State → Except Fault State}
    (hstore : store s s = .ok (setI g i a u)) (hu : Accessed s u) (hc : KeepsSequencer (clause s))
    (hI : clause s (setI g i a u) = setI g i a (clause s u)) (ha : CanAdvance s) :
    runPlain .plain (fun t => afterStore (clause t) (store t) t) s = .next (advance s (putI g i a (clause s u))) := by
  refine runPlain_next (guard_plain s ha) ha ?_ (hu.sameSequencer.trans (hc u))
  simp only [afterStore, hstore, hI]
  rfl

end

/-- Settles O45: the old value is stored, and the clause works on the operands, which no store reaches. -/
theorem computeWithMemoryWrite : Obligations.ComputeWithMemoryWrite := by
  unfold Obligations.ComputeWithMemoryWrite
  refine ⟨fun g r i m s a ha hn hw => ?_, fun r i m s a ha hn hw => ?_⟩
  · rw [← readDreg_eq_dregVal]
    obtain ⟨u, hwrite, hstores⟩ := memWriteDm_of_writable hw (readDreg r s)
    have hu : Accessed s u := memWriteDm_accessed hwrite
    have hstore := dmStore_of_writes hn hwrite
    refine ⟨u, hstores, fun z k => ?_, fun f x => ?_⟩
    · rw [← compute_eq_putCalc hu]
      exact runStore_next (clause := compute z k) (store := fun t => dmStore g (readDreg r t) i m) hstore hu
        (compute_keepsSequencer z k s) (compute_setI z k s g i a u) ha
    · rw [← shXVal_eq_xopShift]
      refine ⟨_, shEffect_shiftClause f (shXVal x s) u, ?_⟩
      exact runStore_next (clause := fun t => shiftClause f (shXVal x t)) (store := fun t => dmStore g (readDreg r t) i m)
        hstore hu (shiftClause_keepsSequencer f _) (shiftClause_setI f _ g i a u) ha
  · rw [← readDreg_eq_dregVal]
    obtain ⟨u, hwrite, hstores⟩ := memWritePm_of_writable hw (readDreg r s ++ s.px)
    have hu : Accessed s u := memWritePm_accessed hwrite
    have hstore := pmStore_of_writes hn hwrite
    refine ⟨u, hstores, fun z k => ?_, fun f x => ?_⟩
    · rw [← compute_eq_putCalc hu]
      exact runStore_next (clause := compute z k) (store := fun t => pmStore (readDreg r t) i m) hstore hu
        (compute_keepsSequencer z k s) (compute_setI z k s .two i a u) ha
    · rw [← shXVal_eq_xopShift]
      refine ⟨_, shEffect_shiftClause f (shXVal x s) u, ?_⟩
      exact runStore_next (clause := fun t => shiftClause f (shXVal x t)) (store := fun t => pmStore (readDreg r t) i m)
        hstore hu (shiftClause_keepsSequencer f _) (shiftClause_setI f _ .two i a u) ha

/-! ## The dual reads (R440, R441) -/

theorem toDreg_eq_pdDreg (pd : PdReg) : PdReg.toDreg pd = pdDreg pd := by
  cases pd <;> rfl

theorem toDreg_eq_ddDreg (dd : DdReg) : DdReg.toDreg dd = ddDreg dd := by
  cases dd <;> rfl

section
variable {pd : PdReg} {dd : DdReg} {pi pm di dm : Fin 4} {s t u : State} {w : PWord} {v : Word} {ap ai : Addr}

/-- A clause beside the two reads: the clause's result, then both registers and PX, then both I registers. -/
theorem runDualRead_next {clause : State → State → State} (hc : KeepsSequencer (clause s)) (ha : CanAdvance s)
    (hu : Accessed s u) (hp : NextI .two pi pm s ap) (hd : NextI .one di dm s ai)
    (hpr : PmReads (dagAddr .two pi s) s w t) (hdr : DmReads (dagAddr .one di s) t v u) :
    runPlain .plain (fun t => withDualRead (clause t) pd dd pi pm di dm t) s =
      .next (advance s (putI .two pi ap (putI .one di ai (putPm (pdDreg pd) w (putDreg (ddDreg dd) v (clause s u)))))) := by
  rw [← loadFromPm_eq_putPm, ← writeDreg_eq_putDreg, ← toDreg_eq_pdDreg, ← toDreg_eq_ddDreg]
  exact runPlain_next (guard_plain s ha) ha (withDualRead_of_reads hp hd hpr hdr) (hu.sameSequencer.trans (hc u))

end

/-- Settles O46: both reads, alone and beside a computation on the operands before them. -/
theorem dualReadsLoad : Obligations.DualReadsLoad := by
  unfold Obligations.DualReadsLoad
  intro pd dd pi pm di dm s t u w v ap ai ha hp hd hpr hdr
  have hu : Accessed s u := (memReadPm_accessed ((memReadPm_eq_ok_iff _ s w t).2 hpr)).trans
    (memReadDm_accessed ((memReadDm_eq_ok_iff _ t v u).2 hdr))
  refine ⟨?_, fun k => ?_⟩
  · exact runDualRead_next (clause := noClause) (noClause_keepsSequencer s) ha hu hp hd hpr hdr
  · rw [← compute_eq_putCalc hu]
    exact runDualRead_next (clause := compute .result k) (compute_keepsSequencer .result k s) ha hu hp hd hpr hdr

end Sys2Proof.Machine
end

section
/-!
The divide primitives (R235, R236) on AF and AY0 as one 32-bit number, and NONE = <ALU> (R240).
-/

namespace Sys2Proof.Machine

open Sys2Proof.Spec

/-! ## A left shift by one place with a bit below it -/

/-- The bit below is bit 0, and every other bit is the one to its right. -/
theorem getLsbD_shiftLeft_one_or_ofBool {w k : Nat} (v : BitVec w) (b : Bool) (hk : k < w) :
    ((v <<< 1) ||| (BitVec.ofBool b).setWidth w).getLsbD k = if k = 0 then b else v.getLsbD (k - 1) := by
  rw [BitVec.getLsbD_or, BitVec.getLsbD_shiftLeft, BitVec.getLsbD_setWidth, BitVec.getLsbD_ofBool]
  cases k with
  | zero => simp [hk]
  | succ n => simp [hk]

theorem ofNat_toNat_eq_setWidth_ofBool (w : Nat) (b : Bool) :
    BitVec.ofNat w b.toNat = (BitVec.ofBool b).setWidth w := by
  rw [← BitVec.ofNat_toNat, BitVec.toNat_ofBool]

/-- The upper word of the shifted pair takes in the sign of the lower one. -/
theorem extractLsb'_high_shift_append (hi lo : Word) (b : Bool) :
    (((hi ++ lo) <<< 1) ||| BitVec.ofNat 32 b.toNat).extractLsb' 16 16 =
      (hi <<< 1) ||| (BitVec.ofBool lo.msb).setWidth 16 := by
  apply BitVec.eq_of_getLsbD_eq
  intro k hk
  rw [ofNat_toNat_eq_setWidth_ofBool, BitVec.getLsbD_extractLsb', decide_eq_true hk, Bool.true_and,
    getLsbD_shiftLeft_one_or_ofBool _ _ (by omega), getLsbD_shiftLeft_one_or_ofBool _ _ hk, if_neg (by omega),
    BitVec.getLsbD_append]
  cases k with
  | zero => exact (BitVec.msb_eq_getLsbD_last lo).symm
  | succ n => rw [if_neg (by omega), if_neg (by omega)]; congr 1; omega

/-- The lower word takes in the bit below. -/
theorem extractLsb'_low_shift_append (hi lo : Word) (b : Bool) :
    (((hi ++ lo) <<< 1) ||| BitVec.ofNat 32 b.toNat).extractLsb' 0 16 =
      (lo <<< 1) ||| (BitVec.ofBool b).setWidth 16 := by
  apply BitVec.eq_of_getLsbD_eq
  intro k hk
  rw [ofNat_toNat_eq_setWidth_ofBool, BitVec.getLsbD_extractLsb', decide_eq_true hk, Bool.true_and, Nat.zero_add,
    getLsbD_shiftLeft_one_or_ofBool _ _ (by omega), getLsbD_shiftLeft_one_or_ofBool _ _ hk, BitVec.getLsbD_append,
    if_pos (show k - 1 < 16 by omega)]

/-! ## The divide primitives (R235, R236) -/

/-- The machine shifts the two words one after the other, the statements the 32-bit number they make. -/
theorem divideStep_eq_divided (t : Word) (b q : Bool) (s : State) :
    divideStep t b q s = divided (t ++ (active s).ay0) b q s := by
  simp only [divided, extractLsb'_high_shift_append, extractLsb'_low_shift_append,
    ← setBitTo_eq_astatWith s.astat (show 5 < 8 by decide), ← setActive_withAstat]
  exact congrArg (fun u : State => { u with astat := withAq s.astat q }) (mapBank_eq_setActive _ s)

theorem divideStep_sequencer (t : Word) (b q : Bool) (s : State) :
    (divideStep t b q s).pc = s.pc ∧ (divideStep t b q s).loopStack = s.loopStack ∧
      (divideStep t b q s).pcStack = s.pcStack :=
  ⟨rfl, rfl, rfl⟩

/-- Settles O8: one 32-bit shift, below the remainder that DIVS takes as it is and DIVQ computes. -/
theorem divideStepsShiftTheDividend : Obligations.DivideStepsShiftTheDividend := by
  unfold Obligations.DivideStepsShiftTheDividend
  refine ⟨fun y x s ha => ?_, fun x s ha => ?_⟩ <;> dsimp only <;>
    rw [← divideStep_eq_divided, ← aluXVal_eq_xopAlu]
  · rw [← aluYVal_eq_yopAlu]
    exact runUpdate_next (f := fun t => divsStep (aluYVal y t) (aluXVal x t) t)
      (fun t => divideStep_sequencer _ _ _ t) ha
  · exact runUpdate_next (f := fun t => divqStep (aluXVal x t) t) (fun t => divideStep_sequencer _ _ _ t) ha

/-! ## NONE = <ALU> (R240) -/

/-- Settles O9: the function is the statements', and its flags are the whole effect. -/
theorem generateStatusWritesFlagsOnly : Obligations.GenerateStatusWritesFlagsOnly := by
  unfold Obligations.GenerateStatusWritesFlagsOnly
  intro f x y s ha
  beta_reduce
  rw [← alu_eq_aluOut, ← aluXVal_eq_xopAlu, ← aluYVal_eq_yopAlu, ← setAluFlags_eq]
  exact runUpdate_next (f := fun t => setAluFlags (alu f (aluXVal x t) (aluYVal y t) (acOf t.astat)) t)
    (fun _ => ⟨rfl, rfl, rfl⟩) ha

end Sys2Proof.Machine
end

section
/-!
The MAC instructions of type 9 (R250 to R261) in the statements' integers, SAT MR (R270), and the clauses beside a register
move (R433, R434).
-/

namespace Sys2Proof.Machine

open Sys2Proof.Spec

/-! ## What a tested condition leaves to the MAC (R162) -/

theorem cfg_tested (c : Cond) (s : State) : (tested c s).cfg = s.cfg := by
  obtain h | ⟨-, h⟩ := tested_cases c s <;> rw [h]
  exact ceTick_cfg s

theorem xopMac_tested (c : Cond) (x : MacX) (s : State) : xopMac x (tested c s) = macXVal x s := by
  simp only [← macXVal_eq_xopMac, macXVal, bank_tested]

theorem yopMac_tested (c : Cond) (y : MacY) (s : State) : yopMac y (tested c s) = macYVal y s := by
  simp only [← macYVal_eq_yopMac, macYVal, bank_tested]

theorem mrOf_tested (c : Cond) (s : State) : mrOf (tested c s) = mrOf s := by
  simp only [mrOf, active_tested]

theorem macOut_tested (op : MacOp) (fmt : MacFmt) (x y : Word) (c : Cond) (s : State) :
    macOut op fmt x y (tested c s) = macOut op fmt x y s := by
  simp only [macOut, active_tested, (sameButCounter_tested c s).mstat, cfg_tested]

/-! ## The commit under a condition (R250, R254) -/

theorem commitMac_keepsSequencer (z : Dest) (res : Acc) (mv : Bool) : KeepsSequencer (commitMac z res mv) := fun s =>
  ⟨commitMac_pc z res mv s, commitMac_loopStack z res mv s, commitMac_pcStack z res mv s⟩

/-- A result computed before the condition is tested is committed after it. -/
theorem runCommitMac_next {z : Dest} {res : Acc} {mv : Bool} {c : Cond} {s : State} (ha : CanAdvance s)
    (hc : CanTest c s) :
    runPlain (.cond c) (ifCond c fun t => .ok (commitMac z res mv t)) s =
      .next (advance s (if condTrue c s then putMac z res mv (tested c s) else tested c s)) := by
  rw [← commitMac_eq_putMac]
  exact runCondUpdate_next (commitMac_keepsSequencer z res mv) ha hc

/-! ## MULTIPLY / ACCUMULATE and MULTIPLY / SUBTRACT (R257 to R259) -/

/-- The machine reads its operands before the condition is tested, the statements after: the same values, so a MAC
instruction has its effect. -/
theorem runs_mac {i : Instr} {op : MacOp} {fmt : MacFmt} {z : Dest} {c : Cond} {x y xop yop : State → Word}
    (hexec : ∀ s, exec i s = runMac op fmt z x y c s) (hx : ∀ s, xop (tested c s) = x s)
    (hy : ∀ s, yop (tested c s) = y s) : Runs i c (macEff op fmt z xop yop) := by
  intro s ha hc
  have heff : macEff op fmt z xop yop (tested c s) =
      putMac z (macOf op fmt (x s) (y s) s) (macOverflow (macOf op fmt (x s) (y s) s)) (tested c s) := by
    simp only [macEff, hx, hy, macOut_tested, macOf_eq_macOut, macOverflow_eq_mvOut]
  rw [hexec, heff]
  exact runCommitMac_next ha hc

/-- Settles O11: `runs_mac`, for a yop in five formats and for the squares in three. -/
theorem accumulateAddsTheProduct : Obligations.AccumulateAddsTheProduct := by
  unfold Obligations.AccumulateAddsTheProduct
  intro z x c
  refine ⟨fun y => ?_, ?_⟩
  · refine ⟨?_, ?_, ?_, ?_, ?_, ?_, ?_, ?_, ?_, ?_⟩ <;>
      exact runs_mac (fun _ => rfl) (xopMac_tested c x) (yopMac_tested c y)
  · refine ⟨?_, ?_, ?_, ?_, ?_, ?_⟩ <;>
      exact runs_mac (fun _ => rfl) (xopMac_tested c x) (xopMac_tested c x)

/-! ## CLEAR and TRANSFER MR (R260, R261) -/

theorem mrVal_eq_mrOf (s : State) : mrVal s = mrOf s := rfl

/-- Rounding any accumulator value (R255). -/
theorem macRound_eq (b : Bool) (v : Acc) : macRound b v = BitVec.ofInt 40 (rounded b v.toInt) := by
  rw [← macRound_ofInt, BitVec.ofInt_toInt]

/-- Settles O12: three commits, of 0, of MR and of MR rounded. -/
theorem clearAndTransferMR : Obligations.ClearAndTransferMR := by
  unfold Obligations.ClearAndTransferMR
  refine fun z c => ⟨fun s ha hc => ?_, fun s ha hc => ?_, fun s ha hc => ?_⟩
  · exact runCommitMac_next ha hc
  · dsimp only
    rw [mrOf_tested, ← mrVal_eq_mrOf, ← macOverflow_eq_mvOut]
    exact runCommitMac_next ha hc
  · dsimp only
    rw [mrOf_tested, cfg_tested, ← mrVal_eq_mrOf, ← macRound_eq, ← macOverflow_eq_mvOut]
    exact runCommitMac_next ha hc

/-! ## SAT MR (R270) -/

theorem decode_satMR (cfg : Config) : decode cfg 0x050000 = some .satMR := rfl

/-- The 32-bit extreme of MR2's sign, register by register (R270). -/
theorem satMr_eq (s : State) : satMr s =
    if s.astat.getLsbD 6 then
      (if (active s).mr2.getLsbD 7 then setActive { active s with mr2 := 0xFF, mr1 := 0x8000, mr0 := 0 } s
      else setActive { active s with mr2 := 0, mr1 := 0x7FFF, mr0 := 0xFFFF } s)
    else s := by
  unfold satMr mvOf saturatedMr
  rw [mapBank_eq_setActive, BitVec.msb_eq_getLsbD_last]
  split
  · dsimp only
    split <;> rfl
  · rfl

theorem satMr_keepsSequencer : KeepsSequencer satMr := by
  intro s
  unfold satMr
  split <;> exact ⟨rfl, rfl, rfl⟩

/-- Settles O13: the word, and the saturation with no condition to test. -/
theorem saturateMR : Obligations.SaturateMR := by
  unfold Obligations.SaturateMR
  refine ⟨decode_satMR, fun s ha => ?_⟩
  beta_reduce
  rw [← satMr_eq]
  exact runUpdate_next satMr_keepsSequencer ha

/-! ## A clause beside a register move (R433, R434) -/

/-- Settles O44: the clause on the state before, with the moved value read there too. -/
theorem computeWithRegisterMove : Obligations.ComputeWithRegisterMove := by
  unfold Obligations.ComputeWithRegisterMove
  refine ⟨fun z k d r hpass s ha => ?_, fun z d r s ha => ?_, fun f x d r s hpass ha => ?_⟩
  · beta_reduce
    rw [← writeDreg_eq_putDreg, ← readDreg_eq_dregVal, ← compute_self_eq_putCalc]
    refine (unlessTwoWriters_pass (calcWrites_eq_true_iff z k d) hpass _ s).trans ?_
    exact runPlain_next (guard_plain s ha) ha rfl (compute_keepsSequencer z k s s)
  · beta_reduce
    rw [← writeDreg_eq_putDreg, ← readDreg_eq_dregVal]
    exact runUpdate_next (f := fun t => writeDreg d (readDreg r t) t) (fun _ => ⟨rfl, rfl, rfl⟩) ha
  · rw [← shXVal_eq_xopShift, ← readDreg_eq_dregVal]
    refine ⟨_, shEffect_shiftClause f (shXVal x s) s, ?_⟩
    rw [← writeDreg_eq_putDreg]
    refine (unlessTwoWriters_pass (shiftWrites_eq_true_iff f d) hpass _ s).trans ?_
    exact runPlain_next (guard_plain s ha) ha rfl (shiftClause_keepsSequencer f _ s)

end Sys2Proof.Machine
end

section
/-!
The shifter instructions of type 16 (R280 to R295) and of type 15 (R300, R301): each runs the function that its SF field
names (R169).
-/

namespace Sys2Proof.Machine

open Sys2Proof.Spec

/-! ## Type 16: under a condition, by SE (R280) -/

theorem shXVal_tested (c : Cond) (x : ShX) (s : State) : shXVal x (tested c s) = shXVal x s := by
  simp only [shXVal, bank_tested]

/-- The conditional shifter instruction of SF has the effect that `shiftClause` has beside a move. -/
theorem exec_decodeShift (f : ShFn) (x : ShX) (c : Cond) (s : State) :
    exec (decodeShift f x c) s = runShift (fun t => shiftClause f (shXVal x t) t) c s := by
  cases f <;> rfl

/-- The machine reads its input after the condition is tested, the statements before: the same value, so the instruction
has the effect of its function. -/
theorem shRuns_decodeShift (f : ShFn) (x : ShX) (c : Cond) : ShRuns (decodeShift f x c) f x c := by
  intro s ha hc
  have hkeeps : KeepsSequencer fun t => shiftClause f (shXVal x t) t := fun t => shiftClause_keepsSequencer f _ t
  refine ⟨_, ?_, (exec_decodeShift f x c s).trans (runCondUpdate_next hkeeps ha hc)⟩
  split
  · rw [shXVal_tested, ← shXVal_eq_xopShift]
    exact shEffect_shiftClause f (shXVal x s) (tested c s)
  · rfl

/-- Settles O14: the functions 0 to 7 of SF. -/
theorem shiftsMoveTheBits : Obligations.ShiftsMoveTheBits := by
  unfold Obligations.ShiftsMoveTheBits
  intro x c
  have h (f : ShFn) := shRuns_decodeShift f x c
  exact ⟨h .lshiftHi, h .lshiftHiOr, h .lshiftLo, h .lshiftLoOr, h .ashiftHi, h .ashiftHiOr, h .ashiftLo, h .ashiftLoOr⟩

/-- Settles O15: the functions 8 to 11 of SF. -/
theorem normalizeShiftsByMinusSE : Obligations.NormalizeShiftsByMinusSE := by
  unfold Obligations.NormalizeShiftsByMinusSE
  intro x c
  have h (f : ShFn) := shRuns_decodeShift f x c
  exact ⟨h .normHi, h .normHiOr, h .normLo, h .normLoOr⟩

/-- Settles O16: the functions 12 to 15 of SF. -/
theorem exponentDetection : Obligations.ExponentDetection := by
  unfold Obligations.ExponentDetection
  intro x c
  have h (f : ShFn) := shRuns_decodeShift f x c
  exact ⟨h .expHi, h .expHix, h .expLo, h .expAdj⟩

/-! ## Type 15: by the constant of the word (R300, R301) -/

/-- One shift for all eight forms: to the reference `hi` or not, arithmetic or logical, ORed with SR or not. -/
def shiftImmClause (x : ShX) (e : BitVec 8) (hi arith orSr : Bool) (s : State) : State :=
  commitShift orSr (shift32 (shXVal x s) e.toInt hi (arith && (shXVal x s).msb)) s

theorem shiftImmClause_keepsSequencer (x : ShX) (e : BitVec 8) (hi arith orSr : Bool) :
    KeepsSequencer (shiftImmClause x e hi arith orSr) := fun _ => ⟨rfl, rfl, rfl⟩

theorem shifts_shiftImmClause (x : ShX) (e : BitVec 8) (hi arith orSr : Bool) (s : State) :
    Shifts (xopShift x s) (e.toInt + if hi then 16 else 0) (arith && (xopShift x s).getLsbD 15) orSr s
      (shiftImmClause x e hi arith orSr s) := by
  unfold shiftImmClause
  rw [BitVec.msb_eq_getLsbD_last, shXVal_eq_xopShift]
  exact shifts_commitShift (shiftedBits_shift32 _ _ hi _ rfl) orSr s

/-- An instruction that runs this shift shifts by the constant, and 16 more for HI. -/
theorem immRuns_of_exec {i : Instr} {x : ShX} {e : BitVec 8} {hi arith orSr : Bool}
    (hexec : ∀ s, exec i s = runPlain .plain (fun t => .ok (shiftImmClause x e hi arith orSr t)) s) :
    ImmRuns i x (e.toInt + if hi then 16 else 0) arith orSr := fun s ha =>
  ⟨_, shifts_shiftImmClause x e hi arith orSr s,
    (hexec s).trans (runUpdate_next (shiftImmClause_keepsSequencer x e hi arith orSr) ha)⟩

/-- For HI the constant counts from the upper word. -/
theorem immRuns_hi {i : Instr} {x : ShX} {e : BitVec 8} {arith orSr : Bool}
    (hexec : ∀ s, exec i s = runPlain .plain (fun t => .ok (shiftImmClause x e true arith orSr t)) s) :
    ImmRuns i x (e.toInt + 16) arith orSr := immRuns_of_exec hexec

/-- For LO it counts from the lower word. -/
theorem immRuns_lo {i : Instr} {x : ShX} {e : BitVec 8} {arith orSr : Bool}
    (hexec : ∀ s, exec i s = runPlain .plain (fun t => .ok (shiftImmClause x e false arith orSr t)) s) :
    ImmRuns i x e.toInt arith orSr := add_zero e.toInt ▸ immRuns_of_exec hexec

/-- Settles O17: the four forms of LSHIFT and of ASHIFT run `shiftImmClause`. -/
theorem shiftImmediateShiftsByItsConstant : Obligations.ShiftImmediateShiftsByItsConstant := by
  unfold Obligations.ShiftImmediateShiftsByItsConstant
  intro x e
  exact ⟨immRuns_hi fun _ => rfl, immRuns_hi fun _ => rfl, immRuns_lo fun _ => rfl, immRuns_lo fun _ => rfl,
    immRuns_hi fun _ => rfl, immRuns_hi fun _ => rfl, immRuns_lo fun _ => rfl, immRuns_lo fun _ => rfl⟩

end Sys2Proof.Machine
end

section
/-!
Load immediate (R315, R316), the writes of CNTR that find its stack full (R318), and the TOPPCSTACK forms (R395 to
R397).
-/

namespace Sys2Proof.Machine

open Sys2Proof.Spec

/-! ## Load immediate (R315, R316) -/

/-- The sign extension of R316 is undone by the low bits a 14-bit register keeps (R314). -/
theorem extractLsb'_ofInt_toInt (v : BitVec 14) : (BitVec.ofInt 16 v.toInt).extractLsb' 0 14 = v := by
  change (v.signExtend 16).extractLsb' 0 14 = v
  refine BitVec.eq_of_getLsbD_eq fun k hk => ?_
  have hk16 : k < 16 := by omega
  simp [BitVec.getElem_signExtend, hk, hk16]

/-- A 14-bit constant goes where a move would put it (R316). -/
theorem exec_loadReg_next {d : DstReg} {s : State} (ha : CanAdvance s) (hw : CanWrite d s) (v : BitVec 14) :
    ∃ t, DstWrites d (BitVec.ofInt 16 v.toInt) s t ∧ exec (.loadReg d v) s = .next (advance s t) := by
  obtain ⟨t, hwrite, hdst⟩ := writeDst_ok_of_room hw.1 (BitVec.ofInt 16 v.toInt)
  have hsame := writeDst_same d _ s t hwrite
  exact ⟨t, hdst, runPlain_next (hazards_moveGuard ha hw) ha hwrite ⟨hsame.pc, hsame.loopStack, hsame.pcStack⟩⟩

/-- Settles O19: a data register takes all 16 bits, every other destination the 14 with their sign. -/
theorem loadImmediateLoads : Obligations.LoadImmediateLoads := by
  unfold Obligations.LoadImmediateLoads
  refine ⟨fun d v s ha => ?_, fun d v s ha hw => exec_loadReg_next ha hw v⟩
  rw [← writeDreg_eq_putDreg]
  exact runUpdate_next (f := writeDreg d v) (fun _ => ⟨rfl, rfl, rfl⟩) ha

/-! ## Writes of CNTR with its stack full (R318, R454) -/

/-- The next write to CNTR has a count to save and no room for it (R318). -/
def CounterFull (s : State) : Prop := s.cntrValid = true ∧ s.cfg.cntrStackDepth ≤ s.cntrStack.length

theorem writeDst_cntr_full {s : State} (h : CounterFull s) (v : Word) :
    writeDst (.reg .cntr) v s = .error (.stackOverflow .counter) := by
  obtain ⟨hvalid, hfull⟩ := h
  exact (if_pos hvalid).trans (if_pos hfull)

/-- With a valid count every source can be read, and no read makes room on the counter stack. -/
theorem moveReg_cntr_full {s : State} (h : CounterFull s) (r : SrcReg) :
    moveReg (.reg .cntr) r s = .error (.stackOverflow .counter) := by
  obtain ⟨v, u, hread, -⟩ := readSrc_ok_of_canRead (r := r) fun _ => .inl h.1
  obtain ⟨⟨hvalid, hstack, hcfg⟩, -⟩ := readSrc_keeps_counter hread
  have hfull : CounterFull u := by rwa [CounterFull, hvalid, hstack, hcfg]
  simp only [moveReg, hread, writeDst_cntr_full hfull]

/-- Nor does a read of memory (R82). -/
theorem loadDirect_cntr_full {a : Addr} {s u : State} {w : Word} (h : CounterFull s) (hr : DmReads a s w u) :
    loadDirect (.reg .cntr) a s = .error (.stackOverflow .counter) := by
  have hread := (memReadDm_eq_ok_iff a s w u).2 hr
  have hfull : CounterFull u := by
    obtain ⟨_, _, _, _, _, rfl⟩ := memReadDm_accessed hread
    exact h
  simp only [loadDirect, hread, writeDst_cntr_full hfull]

/-- A move into CNTR stops with the fault of its effect, where it may end the loop at all (R373 item 4). -/
theorem runPlain_cntr_fault {eff : State → Except Fault State} {s : State} {e : Fault} (ha : CanAdvance s)
    (hend : atLoopEnd s = true → endsOnCe s = false) (he : eff s = .error e) :
    runPlain (moveGuard (.reg .cntr)) eff s = .fault e :=
  runPlain_fault (guard_counter s ha true fun _ => hend) ha he

/-- OWRCNTR replaces the count, saving none (R318). -/
theorem exec_loadReg_owrcntr {s : State} (ha : CanAdvance s) (hend : atLoopEnd s = true → endsOnCe s = false)
    (v : BitVec 14) : exec (.loadReg .owrcntr v) s = .next (advance s { s with cntr := v, cntrValid := true }) := by
  obtain ⟨t, hdst, hexec⟩ := exec_loadReg_next (d := .owrcntr) ha ⟨nofun, fun _ => hend⟩ v
  rw [DstWrites, extractLsb'_ofInt_toInt] at hdst
  rw [hexec, hdst]

/-- Settles O20: each of the three writes of CNTR meets the full stack; OWRCNTR does not. -/
theorem counterWriteOverflows : Obligations.CounterWriteOverflows := by
  unfold Obligations.CounterWriteOverflows
  intro v r s ha hend hvalid hfull
  have h : CounterFull s := ⟨hvalid, hfull⟩
  have hsame : { s with cntr := v, cntrValid := true } = { s with cntr := v } := by rw [← hvalid]
  exact ⟨runPlain_cntr_fault ha hend (writeDst_cntr_full h _), runPlain_cntr_fault ha hend (moveReg_cntr_full h r),
    fun _ _ _ hr => runPlain_cntr_fault ha hend (loadDirect_cntr_full h hr),
    hsame ▸ exec_loadReg_owrcntr ha hend v, rfl⟩

/-! ## The top of the PC stack (R395 to R397) -/

section
variable {g : Guard} {eff : State → Except Fault State} {s : State}

/-- Away from a loop's end with no pop pending an instruction does what it may to the stacks, and goes on (R372). -/
theorem runPlain_away_next {t : State} (hE : atLoopEnd s = false) (hp : s.pcPopPending = false)
    (he : eff s = .ok t) : runPlain g eff s = .next { t with pc := t.pc + 1 } :=
  (toOutcome_next _ _).2 (runSeq_away g eff s t hE (by simp [hp]) he)

theorem runPlain_away_fault {e : Fault} (hE : atLoopEnd s = false) (hp : s.pcPopPending = false)
    (he : eff s = .error e) : runPlain g eff s = .fault e :=
  runPlain_fault (guard_away g s hE (by simp [hp])) (by simp [CanAdvance, hE]) he

end

section
variable {r : Reg} {s : State}

theorem pushPc_room {a : Addr} (h : s.pcStack.length < 16) :
    pushPc a s = .ok { s with pcStack := a :: s.pcStack } := if_neg (Nat.not_le.2 h)

theorem pushPc_full {a : Addr} (h : 16 ≤ s.pcStack.length) : pushPc a s = .error (.stackOverflow .pc) := if_pos h

theorem readTopPc_empty (h : s.pcStack = []) : readTopPc r s = .error (.stackUnderflow .pc) := by
  simp only [readTopPc, topPc, h]

/-- The register takes the top as a move would, and the pop waits for the next instruction (R396, D25). -/
theorem readTopPc_ok {a : Addr} {rest : List Addr} (htop : s.pcStack = a :: rest) (hw : CanWrite (.reg r) s) :
    ∃ t, DstWrites (.reg r) (BitVec.ofNat 16 a.toNat) s t ∧ t.pc = s.pc ∧
      readTopPc r s = .ok { t with pcPopPending := true } := by
  obtain ⟨t, hwrite, hdst⟩ := writeDst_ok_of_room hw.1 (a.setWidth 16)
  have hreg : writeReg r (a.setWidth 16) s = .ok t := hwrite
  refine ⟨t, BitVec.ofNat_toNat 16 a ▸ hdst, (writeDst_same _ _ s t hwrite).pc, ?_⟩
  simp only [readTopPc, topPc, htop, hreg]

/-- A readable register's value is what the push gets (R397). -/
theorem writeTopPc_eq_pushPc (hr : CanRead (.reg r) s) :
    ∃ v u, SrcReads (.reg r) s v u ∧ (u.pc = s.pc ∧ u.pcStack = s.pcStack) ∧
      writeTopPc r s = pushPc (v.extractLsb' 0 14) u := by
  obtain ⟨v, u, hread, hsrc⟩ := readSrc_ok_of_canRead hr
  obtain ⟨-, hpc, -, hstack⟩ := readSrc_keeps_counter hread
  have hreg : readReg r s = .ok (v, u) := hread
  refine ⟨v, u, hsrc, ⟨hpc, hstack⟩, ?_⟩
  simp only [writeTopPc, hreg, setWidth_eq_extractLsb']

/-- The one register that cannot be read is an expired CNTR (R318). -/
theorem writeTopPc_unreadable (h : ¬ CanRead (.reg r) s) : writeTopPc r s = .error .uninitCntr := by
  obtain ⟨hr, hexp⟩ := Classical.not_imp.1 h
  obtain rfl : r = .cntr := SrcReg.reg.inj hr
  have hread : cntrReadable s = false := by simpa [cntrReadable] using hexp
  simp only [writeTopPc, readReg_cntr_expired s hread]

theorem exec_regFromTop_next {a : Addr} {rest : List Addr} (hE : atLoopEnd s = false) (hp : s.pcPopPending = false)
    (htop : s.pcStack = a :: rest) (hw : CanWrite (.reg r) s) :
    ∃ t, DstWrites (.reg r) (BitVec.ofNat 16 a.toNat) s t ∧
      exec (.regFromTop r) s = .next { t with pc := s.pc + 1, pcPopPending := true } := by
  obtain ⟨t, hdst, hpc, hread⟩ := readTopPc_ok htop hw
  exact ⟨t, hdst, hpc ▸ runPlain_away_next hE hp hread⟩

theorem exec_topFromReg_next (hE : atLoopEnd s = false) (hp : s.pcPopPending = false) (hr : CanRead (.reg r) s)
    (hroom : s.pcStack.length < 16) :
    ∃ v u, SrcReads (.reg r) s v u ∧
      exec (.topFromReg r) s = .next { u with pc := s.pc + 1, pcStack := v.extractLsb' 0 14 :: s.pcStack } := by
  obtain ⟨v, u, hsrc, ⟨hpc, hstack⟩, hpush⟩ := writeTopPc_eq_pushPc hr
  rw [← hstack] at hroom ⊢
  rw [← hpc]
  exact ⟨v, u, hsrc, runPlain_away_next hE hp (hpush.trans (pushPc_room hroom))⟩

theorem exec_topFromReg_full (hE : atLoopEnd s = false) (hp : s.pcPopPending = false) (hr : CanRead (.reg r) s)
    (hfull : 16 ≤ s.pcStack.length) : exec (.topFromReg r) s = .fault (.stackOverflow .pc) := by
  obtain ⟨v, u, -, ⟨-, hstack⟩, hpush⟩ := writeTopPc_eq_pushPc hr
  rw [← hstack] at hfull
  exact runPlain_away_fault hE hp (hpush.trans (pushPc_full hfull))

end

/-- Settles O39: the copy of the top, the push, and what stops either. -/
theorem topOfPcStackMoves : Obligations.TopOfPcStackMoves := by
  unfold Obligations.TopOfPcStackMoves
  refine ⟨fun d a rest s => exec_regFromTop_next, fun r s => exec_topFromReg_next,
    fun r s hE hp => ⟨fun h => ?_, exec_topFromReg_full hE hp, fun h => ?_⟩⟩
  · exact runPlain_away_fault hE hp (readTopPc_empty h)
  · exact runPlain_away_fault hE hp (writeTopPc_unreadable h)

end Sys2Proof.Machine
end

section
/-!
The stacks of the sequencer under program control: DO UNTIL (R370), stack control (R390), and an interrupt entry undone
by its RTI (R361, R464).
-/

namespace Sys2Proof.Machine

open Sys2Proof.Spec

/-! ## DO UNTIL (R370) -/

theorem startLoop_room {a : Addr} {e : Term} {s : State} (hloop : s.loopStack.length < 4)
    (hpc : s.pcStack.length < 16) :
    startLoop a e s = { s with loopStack := ⟨a, e⟩ :: s.loopStack, pcStack := (s.pc + 1) :: s.pcStack } := by
  refine if_neg ?_
  simp only [Bool.or_eq_true, decide_eq_true_eq, not_or, Nat.not_le]
  exact ⟨hloop, hpc⟩

theorem startLoop_full {a : Addr} {e : Term} {s : State} (h : 4 ≤ s.loopStack.length ∨ 16 ≤ s.pcStack.length) :
    startLoop a e s = { s with
      lso := s.lso || decide (4 ≤ s.loopStack.length)
      pso := s.pso || decide (16 ≤ s.pcStack.length) } :=
  if_pos (Bool.or_eq_true_iff.2 (h.imp decide_eq_true decide_eq_true))

/-- Away from a loop's end DO UNTIL does what the stacks allow, and the pc goes on. -/
theorem exec_doUntil_away {a : Addr} {e : Term} {s : State} (hE : atLoopEnd s = false)
    (hp : s.pcPopPending = false) :
    exec (.doUntil a e) s = .next { startLoop a e s with pc := (startLoop a e s).pc + 1 } :=
  runPlain_away_next (t := startLoop a e s) hE hp rfl

/-- Settles O33: both pushes, or the overflow bits alone. -/
theorem doUntilPushesTheLoop : Obligations.DoUntilPushesTheLoop := by
  unfold Obligations.DoUntilPushesTheLoop
  refine fun a e s hE hp => ⟨fun hloop hpc => ?_, fun hfull => ?_⟩
  · rw [exec_doUntil_away hE hp, startLoop_room hloop hpc]
  · rw [exec_doUntil_away hE hp, startLoop_full hfull]

/-! ## One stack at a time (R355, R454) -/

section
variable {s : State}

theorem pushSts_room (h : s.statusStack.length < s.cfg.statusStackDepth) :
    pushSts s = .ok { s with statusStack := ⟨s.astat, s.mstat, s.imask⟩ :: s.statusStack } :=
  if_neg (Nat.not_le.2 h)

theorem pushSts_full (h : s.cfg.statusStackDepth ≤ s.statusStack.length) :
    pushSts s = .error (.stackOverflow .status) := if_pos h

theorem popSts_cons {e : StatusEntry} {rest : List StatusEntry} (h : s.statusStack = e :: rest) :
    popSts s = .ok { s with statusStack := rest, astat := e.astat, mstat := e.mstat, imask := e.imask } := by
  simp only [popSts, h]

theorem popSts_empty (h : s.statusStack = []) : popSts s = .error (.stackUnderflow .status) := by
  simp only [popSts, h]

theorem popPc_cons {a : Addr} {rest : List Addr} (h : s.pcStack = a :: rest) :
    popPc s = .ok (a, { s with pcStack := rest }) := by
  simp only [popPc, h]

theorem popPc_empty (h : s.pcStack = []) : popPc s = .error (.stackUnderflow .pc) := by
  simp only [popPc, h]

theorem popLoop_cons {e : LoopEntry} {rest : List LoopEntry} (h : s.loopStack = e :: rest) :
    popLoop s = .ok { s with loopStack := rest } := by
  simp only [popLoop, h]

theorem popLoop_empty (h : s.loopStack = []) : popLoop s = .error (.stackUnderflow .loop) := by
  simp only [popLoop, h]

theorem popCntr_cons {n : Addr} {rest : List Addr} (h : s.cntrStack = n :: rest) :
    popCntr s = .ok { s with cntrStack := rest, cntr := n, cntrValid := true } := by
  simp only [popCntr, h]

theorem popCntr_empty (h : s.cntrStack = []) : popCntr s = .error (.stackUnderflow .counter) := by
  simp only [popCntr, h]

end

/-! ## The clauses of stack control (R390) -/

/-- What the status clause leaves where it completes. -/
def statusControlled (sp : StsOp) (s : State) : State :=
  match sp, s.statusStack with
  | .push, l => { s with statusStack := ⟨s.astat, s.mstat, s.imask⟩ :: l }
  | .pop, e :: l => { s with statusStack := l, astat := e.astat, mstat := e.mstat, imask := e.imask }
  | _, _ => s

/-- What the pops of the three other stacks leave where they complete. -/
def stacksPopped (pp lp cp : Bool) (s : State) : State :=
  { s with
    pcStack := if pp then s.pcStack.tail else s.pcStack
    loopStack := if lp then s.loopStack.tail else s.loopStack
    cntrStack := if cp then s.cntrStack.tail else s.cntrStack
    cntr := if cp then s.cntrStack.headD 0 else s.cntr
    cntrValid := cp || s.cntrValid }

theorem controlStatus_ok {sp : StsOp} {s : State}
    (hpush : sp = .push → s.statusStack.length < s.cfg.statusStackDepth) (hpop : sp = .pop → s.statusStack ≠ []) :
    controlStatus sp s = .ok (statusControlled sp s) := by
  cases sp with
  | keep => rfl
  | push => exact pushSts_room (hpush rfl)
  | pop =>
    obtain ⟨e, rest, h⟩ := List.exists_cons_of_ne_nil (hpop rfl)
    simp only [statusControlled, h]
    exact popSts_cons h

/-- The status clause leaves what the pops read. -/
theorem statusControlled_keeps (sp : StsOp) (s : State) :
    SameSequencer s (statusControlled sp s) ∧ (statusControlled sp s).cntrStack = s.cntrStack ∧
      (statusControlled sp s).cntr = s.cntr ∧ (statusControlled sp s).cntrValid = s.cntrValid := by
  cases sp with
  | keep | push => exact ⟨⟨rfl, rfl, rfl⟩, rfl, rfl, rfl⟩
  | pop =>
    unfold statusControlled
    cases s.statusStack <;> exact ⟨⟨rfl, rfl, rfl⟩, rfl, rfl, rfl⟩

/-- The pops of one word, CNTR's first: each finds its own stack as it was. -/
theorem controlPops_ok {pp lp cp : Bool} {s : State} (hpp : pp = true → s.pcStack ≠ [])
    (hlp : lp = true → s.loopStack ≠ []) (hcp : cp = true → s.cntrStack ≠ []) :
    controlPops pp lp cp s = .ok (stacksPopped pp lp cp s) := by
  have hcntr : (if cp then popCntr s else .ok s) = .ok (stacksPopped false false cp s) := by
    cases cp with
    | false => rfl
    | true =>
      obtain ⟨n, rest, h⟩ := List.exists_cons_of_ne_nil (hcp rfl)
      simp [stacksPopped, popCntr_cons h, h]
  have hpc (u : State) (hu : u.pcStack = s.pcStack) :
      ∃ a, (if pp then popPc u else .ok (u.pc, u)) = .ok (a, stacksPopped pp false false u) := by
    cases pp with
    | false => exact ⟨_, rfl⟩
    | true =>
      obtain ⟨a, rest, h⟩ := List.exists_cons_of_ne_nil (hpp rfl)
      exact ⟨a, by simp [stacksPopped, popPc_cons (hu.trans h), hu.trans h]⟩
  have hloop (u : State) (hu : u.loopStack = s.loopStack) :
      (if lp then popLoop u else .ok u) = .ok (stacksPopped false lp false u) := by
    cases lp with
    | false => rfl
    | true =>
      obtain ⟨e, rest, h⟩ := List.exists_cons_of_ne_nil (hlp rfl)
      simp [stacksPopped, popLoop_cons (hu.trans h), hu.trans h]
  obtain ⟨a, hpopped⟩ := hpc (stacksPopped false false cp s) rfl
  unfold controlPops
  simp only [hcntr, hpopped]
  exact hloop _ rfl

theorem controlStacks_ok {pp lp cp : Bool} {sp : StsOp} {s : State} (hpp : pp = true → s.pcStack ≠ [])
    (hlp : lp = true → s.loopStack ≠ []) (hcp : cp = true → s.cntrStack ≠ [])
    (hpush : sp = .push → s.statusStack.length < s.cfg.statusStackDepth) (hpop : sp = .pop → s.statusStack ≠ []) :
    controlStacks pp lp cp sp s = .ok (stacksPopped pp lp cp (statusControlled sp s)) := by
  obtain ⟨⟨-, hloop, hpc⟩, hcntr, -⟩ := statusControlled_keeps sp s
  simp only [controlStacks, controlStatus_ok hpush hpop]
  exact controlPops_ok (hpc ▸ hpp) (hloop ▸ hlp) (hcntr ▸ hcp)

/-- A status clause that its stack does not allow stops the word: it comes first. -/
theorem controlStacks_status_error {pp lp cp : Bool} {sp : StsOp} {s : State} {f : Fault}
    (h : controlStatus sp s = .error f) : controlStacks pp lp cp sp s = .error f := by
  simp only [controlStacks, h]

theorem controlStacks_keep (pp lp cp : Bool) (s : State) :
    controlStacks pp lp cp .keep s = controlPops pp lp cp s := rfl

/-! ## Stack control as an instruction -/

/-- An effect that may change the stacks of the sequencer, but not at a loop's end, runs and goes on. -/
theorem runPlain_next_of_end {g : Guard} {eff : State → Except Fault State} {s t : State}
    (hg : hazards g s = .ok ()) (ha : CanAdvance s) (he : eff s = .ok t) (hpc : t.pc = s.pc)
    (hend : atLoopEnd s = true → t.loopStack = s.loopStack ∧ t.pcStack = s.pcStack) :
    runPlain g eff s = .next (advance s t) := by
  cases hE : atLoopEnd s with
  | true => exact runPlain_next hg ha he ⟨hpc, hend hE⟩
  | false =>
    obtain ⟨hpop, -⟩ := (guard_ok_iff g s).1 hg
    rw [advance_away s t hE, ← hpc]
    exact runPlain_away hE (fun hp => (hpop hp).1) he

/-- The hazards of R373 and R396: POP PC with a pop pending, a pop at a loop's end. -/
theorem hazards_controlGuard {pp lp cp : Bool} {s : State} (ha : CanAdvance s)
    (hpp : pp = true → s.pcPopPending = false)
    (hend : atLoopEnd s = true → pp = false ∧ lp = false ∧ (cp = true → endsOnCe s = false)) :
    hazards (controlGuard pp lp cp) s = .ok () := by
  refine (guard_ok_iff _ s).2 ⟨fun hp => ⟨?_, ?_⟩, fun hE => ?_⟩
  · exact Bool.eq_false_iff.2 fun h => by simp [hpp h] at hp
  · exact Bool.eq_false_iff.2 fun hE => by simp [(ha hE).1] at hp
  · obtain ⟨rfl, rfl, hcp⟩ := hend hE
    exact ⟨rfl, hcp⟩

theorem exec_stackControl_next {pp lp cp : Bool} {sp : StsOp} {s : State} (ha : CanAdvance s)
    (hpp : pp = true → s.pcPopPending = false ∧ s.pcStack ≠ []) (hlp : lp = true → s.loopStack ≠ [])
    (hcp : cp = true → s.cntrStack ≠ [])
    (hend : atLoopEnd s = true → pp = false ∧ lp = false ∧ (cp = true → endsOnCe s = false))
    (hpush : sp = .push → s.statusStack.length < s.cfg.statusStackDepth) (hpop : sp = .pop → s.statusStack ≠ []) :
    exec (.stackControl pp lp cp sp) s = .next (advance s (stacksPopped pp lp cp (statusControlled sp s))) := by
  obtain ⟨⟨hpc, hloop, hstack⟩, -⟩ := statusControlled_keeps sp s
  refine runPlain_next_of_end (hazards_controlGuard ha (fun h => (hpp h).1) hend) ha
    (controlStacks_ok (fun h => (hpp h).2) hlp hcp hpush hpop) hpc fun hE => ?_
  obtain ⟨rfl, rfl, -⟩ := hend hE
  exact ⟨hloop, hstack⟩

/-- Settles O38: the clauses where each stack allows its own, and the five single clauses that find it does not. -/
theorem stackControlPushesAndPops : Obligations.StackControlPushesAndPops := by
  unfold Obligations.StackControlPushesAndPops
  refine ⟨fun pp lp cp sp s ha hpp hlp hcp hend hpush hpop => ?_, fun s hE hp => ?_⟩
  · rw [exec_stackControl_next ha hpp hlp hcp hend hpush hpop]
    obtain ⟨⟨-, hloop, hstack⟩, hcntrStack, hcntr, hvalid⟩ := statusControlled_keeps sp s
    rw [stacksPopped, hloop, hstack, hcntrStack, hcntr, hvalid]
    rfl
  · refine ⟨fun h => ?_, fun h => ?_, fun h => ?_, fun h => ?_, fun h => ?_⟩
    · exact runPlain_away_fault hE hp (controlStacks_status_error (pushSts_full h))
    · exact runPlain_away_fault hE hp (controlStacks_status_error (popSts_empty h))
    · exact runPlain_away_fault hE hp (by simp [controlStacks_keep, controlPops, popPc_empty h])
    · exact runPlain_away_fault hE hp (by simp [controlStacks_keep, controlPops, popLoop_empty h])
    · exact runPlain_away_fault hE hp (by simp [controlStacks_keep, controlPops, popCntr_empty h])

/-! ## An interrupt and its RTI (R361, R464) -/

theorem returnFromInterrupt_cons {s : State} {a : Addr} {rest : List Addr} {e : StatusEntry}
    {sts : List StatusEntry} (hpc : s.pcStack = a :: rest) (hsts : s.statusStack = e :: sts) :
    returnFromInterrupt s = .ok { s with
      pc := a, pcStack := rest, statusStack := sts, astat := e.astat, mstat := e.mstat, imask := e.imask } := by
  simp only [returnFromInterrupt, popPc_cons hpc]
  exact popSts_cons hsts

/-- An unconditional RTI away from a loop's end returns. -/
theorem exec_rti_always {s : State} (hE : atLoopEnd s = false) (hp : s.pcPopPending = false) :
    exec (.rti .always) s = toOutcome (returnFromInterrupt s) :=
  have hg : hazards (stackGuard .always) s = .ok () := guard_away _ s hE (by simp [hp])
  congrArg toOutcome (runTransfer_taken _ _ _ s s hg (evalCond_ok .always s nofun) hE)

/-- No loop's last address is the pc (R372). -/
theorem atLoopEnd_eq_false {s : State} (h : ∀ e ∈ s.loopStack.head?, e.addr ≠ s.pc) : atLoopEnd s = false := by
  unfold atLoopEnd
  cases hl : s.loopStack with
  | nil => rfl
  | cons e rest => simpa [hl] using h

/-- Settles O50: RTI takes off the two stacks just what the entry put on them. -/
theorem interruptThenReturnRestores : Obligations.InterruptThenReturnRestores := by
  unfold Obligations.InterruptThenReturnRestores
  intro q s t hp hvector ht
  obtain ⟨-, -, hentry⟩ := takeInterrupt_inv q s t ht
  have hE : atLoopEnd t = false := atLoopEnd_eq_false (by rw [hentry]; exact hvector)
  have hpop : t.pcPopPending = false := by rw [hentry]; exact hp
  have hpc : t.pcStack = s.pc :: s.pcStack := by rw [hentry]
  have hsts : t.statusStack = ⟨s.astat, s.mstat, s.imask⟩ :: s.statusStack := by rw [hentry]
  rw [exec_rti_always hE hpop, returnFromInterrupt_cons hpc hsts, hentry]
  rfl

end Sys2Proof.Machine
end

section
/-!
The no-operation (R408): the words with top byte 0, its sequencing and the pending pop at its end. And the interrupt
entry as a step (R462, R464, R465): which source is due, and what its entry does or refuses.
-/

namespace Sys2Proof.Machine

open Sys2Proof.Spec

/-! ## NOP (R408) -/

/-- Of the words with top byte 0 the low half picks out one (R408). -/
theorem extractLsb'_low_eq_zero_iff {w : PWord} (h : w.toNat < 65536) : w.extractLsb' 0 16 = 0 ↔ w = 0 := by
  rw [← BitVec.toNat_inj, ← BitVec.toNat_inj, BitVec.extractLsb'_toNat, Nat.shiftRight_zero, Nat.mod_eq_of_lt h]
  rfl

/-- A field above the low half of such a word is 0. -/
theorem extractLsb'_eq_zero_of_lt {w : PWord} (h : w.toNat < 65536) {n : Nat} (hn : 16 ≤ n) (k : Nat) :
    w.extractLsb' n k = 0 := by
  have hlt : w.toNat < 2 ^ n := h.trans_le (Nat.pow_le_pow_right Nat.two_pos hn)
  refine BitVec.eq_of_toNat_eq ?_
  rw [BitVec.extractLsb'_toNat, Nat.shiftRight_eq_div_pow, Nat.div_eq_of_lt hlt]
  rfl

/-- The words with top byte 0 are one row of the decoder: NOP, or nothing (R122, R408). -/
theorem decodeRow_top_byte_zero (c : Config) {w : PWord} (h : w.toNat < 65536) :
    decodeRow c w = if w = 0 then some .nop else none := by
  have hrow : w.extractLsb' 20 4 = 0 := extractLsb'_eq_zero_of_lt h (by decide) 4
  have hlow : w.extractLsb' 16 4 = 0 := extractLsb'_eq_zero_of_lt h (by decide) 4
  have hdecode : decodeRow c w = if w.extractLsb' 0 16 = 0 then some .nop else none := by
    simp [decodeRow, hrow, decodeLow, hlow]
  rw [hdecode, if_congr (extractLsb'_low_eq_zero_iff h) rfl rfl]

theorem decode_zero (c : Config) : decode c 0 = some .nop := by
  rw [decode, decodeRow_top_byte_zero c (by decide)]
  rfl

theorem decode_top_byte_zero (c : Config) {w : PWord} (h : w.toNat < 65536) (hw : w ≠ 0) : decode c w = none := by
  rw [decode, decodeRow_top_byte_zero c h, if_neg hw]
  rfl

/-- Wherever an instruction may complete, NOP does, and only the sequencing acts (R372, R408). -/
theorem exec_nop_next {s : State} (ha : CanAdvance s) : exec .nop s = .next (advance s s) :=
  runUpdate_next (f := id) (fun _ => ⟨rfl, rfl, rfl⟩) ha

/-- Away from a loop's end that is the next address alone, a pending pop or not. -/
theorem exec_nop_away {s : State} (hE : atLoopEnd s = false) : exec .nop s = .next { s with pc := s.pc + 1 } := by
  rw [exec_nop_next (by simp [CanAdvance, hE]), advance_away s s hE]

/-- Settles O41: one row of the decoder, an update that changes nothing, and the delayed pop after it. -/
theorem nopOnlyAdvances : Obligations.NopOnlyAdvances := by
  unfold Obligations.NopOnlyAdvances
  refine ⟨decode_zero, fun c w => decode_top_byte_zero c, fun s => exec_nop_next, fun s a rest hE hstack => ?_⟩
  rw [exec_nop_away hE]
  exact finishStep_pop hstack

/-! ## The source that is due (R462, R465) -/

theorem mem_filter_eligible_iff (s : State) (q : IrqSource) :
    q ∈ s.cfg.irqTable.filter (eligible s) ↔ Eligible s q := by
  simp [eligible, Eligible, and_assoc]

/-- Of a list with a source in it one is chosen. -/
theorem firstByPriority_isSome_of_mem {l : List IrqSource} {q : IrqSource} (h : q ∈ l) :
    (firstByPriority l).isSome := by
  cases l with
  | nil => cases h
  | cons p ps =>
    unfold firstByPriority
    split
    · rfl
    · split <;> rfl

/-- The one eligible source whose priority is below every other's is the one that is due. -/
theorem interruptDue_eq_some {s : State} {q : IrqSource} (hq : Eligible s q)
    (hmin : ∀ r, Eligible s r → r ≠ q → q.priority < r.priority) : interruptDue s = some q := by
  have hmem := (mem_filter_eligible_iff s q).2 hq
  obtain ⟨r, hr⟩ := Option.isSome_iff_exists.1 (firstByPriority_isSome_of_mem hmem)
  obtain ⟨hrmem, hle⟩ := firstByPriority_mem _ r hr
  have hrq : r = q := by
    by_contra hne
    exact absurd (hle q hmem) (Nat.not_le.2 (hmin r ((mem_filter_eligible_iff s r).1 hrmem) hne))
  rw [← hrq]
  exact hr

/-! ## The entry (R464) -/

/-- The latches after the entry of `q` (R464). -/
def latchesAfterEntry (q : IrqSource) (p : BitVec 16) : BitVec 16 :=
  if q.clearsOnEntry then setBitTo p q.latch.val false else p

/-- Only the source's own latch is cleared, and only where its row of the table says so. -/
theorem getLsbD_latchesAfterEntry (q : IrqSource) (p : BitVec 16) (k : Nat) :
    (latchesAfterEntry q p).getLsbD k = (p.getLsbD k && !(q.clearsOnEntry && decide (k = q.latch.val))) := by
  unfold latchesAfterEntry
  cases q.clearsOnEntry with
  | false => simp
  | true =>
    rw [if_pos rfl, getLsbD_setBitTo _ _ _ _ q.latch.isLt]
    by_cases hk : k = q.latch.val <;> simp [hk]

theorem takeInterrupt_room (q : IrqSource) {s : State} (hpc : s.pcStack.length < 16)
    (hsts : s.statusStack.length < s.cfg.statusStackDepth) :
    takeInterrupt q s = .ok { s with
      pc := q.vector
      pcStack := s.pc :: s.pcStack
      statusStack := ⟨s.astat, s.mstat, s.imask⟩ :: s.statusStack
      imask := keepLow s.cfg.imaskBits (entryMaskValue s.imask s.icntl q.entryMask)
      irqPending := latchesAfterEntry q s.irqPending
      idle := false } := by
  have hpush := pushSts_room (s := { s with pcStack := s.pc :: s.pcStack }) hsts
  simp only [takeInterrupt, pushPc_room hpc, hpush, latchesAfterEntry]

theorem takeInterrupt_pc_full (q : IrqSource) {s : State} (h : 16 ≤ s.pcStack.length) :
    takeInterrupt q s = .error (.stackOverflow .pc) := by
  simp only [takeInterrupt, pushPc_full h]

/-- The PC stack is pushed first, so the status stack's overflow shows only where that push has room (R464). -/
theorem takeInterrupt_status_full (q : IrqSource) {s : State} (hpc : s.pcStack.length < 16)
    (hsts : s.cfg.statusStackDepth ≤ s.statusStack.length) :
    takeInterrupt q s = .error (.stackOverflow .status) := by
  have hpush := pushSts_full (s := { s with pcStack := s.pc :: s.pcStack }) hsts
  simp only [takeInterrupt, pushPc_room hpc, hpush]

/-! ## The entry as a step (R462) -/

section
variable {s : State} {q : IrqSource} (hdue : interruptDue (environmentStep s) = some q)
include hdue

theorem step_interrupt_pending (hp : (environmentStep s).pcPopPending = true) : step s = .fault .pcPopHazard := by
  simp [step, hdue, hp]

theorem step_interrupt (hp : (environmentStep s).pcPopPending = false) :
    step s = toOutcome (takeInterrupt q (environmentStep s)) := by
  simp [step, hdue, hp]

end

/-- Settles O49: the source of smallest priority is due, and its entry is refused or pushes both stacks. -/
theorem interruptEntrySavesAndVectors : Obligations.InterruptEntrySavesAndVectors := by
  unfold Obligations.InterruptEntrySavesAndVectors
  intro s q e hq hmin
  have hdue : interruptDue e = some q := interruptDue_eq_some hq hmin
  refine ⟨step_interrupt_pending hdue, fun hp hfull => ?_, fun hp hroom hfull => ?_, fun hp hpc hsts =>
    ⟨_, latchesAfterEntry q e.irqPending, lowBits_keepLow _ _,
      fun k _ => getLsbD_latchesAfterEntry q e.irqPending k, ?_⟩⟩
  · rw [step_interrupt hdue hp, takeInterrupt_pc_full q hfull]
    rfl
  · rw [step_interrupt hdue hp, takeInterrupt_status_full q hroom hfull]
    rfl
  · rw [step_interrupt hdue hp, takeInterrupt_room q hpc hsts]
    rfl

end Sys2Proof.Machine
end

section
/-!
Two clauses that name one register as destination (R422; the spec's decision D14): refused before the guard and before
the access (R459 item 3), so in every state.
-/

namespace Sys2Proof.Machine

open Sys2Proof.Spec

/-- An instruction that R422 refuses answers so whatever its effect and its state. -/
theorem unlessTwoWriters_refuse {bad : Bool} {p : Prop} (hbad : bad = true ↔ p) (h : p)
    (eff : State → Except Fault State) (s : State) : unlessTwoWriters bad eff s = .fault .indeterminate :=
  if_pos (hbad.2 h)

/-- Settles O47: in each of the six forms, the model's test of the destinations is the one of R422's table. -/
theorem twoWritersAreIndeterminate : Obligations.TwoWritersAreIndeterminate := by
  unfold Obligations.TwoWritersAreIndeterminate
  intro i s h
  unfold twoWriters at h
  split at h
  case h_1 _ z k d _ _ | h_2 z k d _ _ | h_3 z k d _ =>
    exact unlessTwoWriters_refuse (calcWrites_eq_true_iff z k d) h _ s
  case h_4 _ f _ d _ _ | h_5 f _ d _ _ | h_6 f _ d _ =>
    exact unlessTwoWriters_refuse (shiftWrites_eq_true_iff f d) h _ s
  case h_7 => exact h.elim

end Sys2Proof.Machine
end

section
/-!
The round trip of the encoder and the decoder (R120 to R197): each word format reads its fields back, and each row of the
decoder takes a well-formed instruction's word back to the instruction.
-/

namespace Sys2Proof

section
variable (cfg : Config)

/-! ## Type 9 (R131): the register, constant and squaring forms -/

theorem AluFn.code_ne_zero (f : AluFn) : f.code ≠ 0#5 := by cases f <;> decide

theorem AluFn.code_high (f : AluFn) : f.code.extractLsb' 4 1 = 1#1 := by cases f <;> rfl

theorem macCode_ne_zero (op : MacOp) (fmt : MacFmt) : macCode op fmt ≠ 0#5 := by cases op <;> cases fmt <;> decide

theorem macCode_high (op : MacOp) (fmt : MacFmt) : (macCode op fmt).extractLsb' 4 1 = 0#1 := by
  cases op <;> cases fmt <;> rfl

theorem decodeRow_encAlu (f : AluFn) (z : Dest) (y : AluY) (x : AluX) (c : Cond) :
    decodeRow cfg (encAlu f z y x c) = some (decodeAluReg f z y x c) := by
  simp (disch := decide) only [decodeRow, decodeTwoThree, decodeType9, encAlu, BitVec.extractLsb'_append_eq_of_le,
    BitVec.extractLsb'_append_eq_of_add_le, BitVec.extractLsb'_eq_self, Nat.reduceSub]
  simp [f.code_ne_zero, f.code_high]

theorem decodeRow_encAluK (f : AluFn) (z : Dest) (k : Konst) (x : AluX) (c : Cond) :
    decodeRow cfg (encAluK f z k x c) = decodeAluConst f z k x c := by
  have hbo : k.bo ≠ 0#2 := by unfold Konst.bo; split <;> decide
  have hconst : k.bo.extractLsb' 0 1 = 1#1 := by unfold Konst.bo; split <;> rfl
  simp (disch := decide) only [decodeRow, decodeTwoThree, decodeType9, encAluK, BitVec.extractLsb'_append_eq_of_le,
    BitVec.extractLsb'_append_eq_of_add_le, BitVec.extractLsb'_eq_self, Nat.reduceSub]
  simp [f.code_ne_zero, f.code_high, hbo, hconst]

theorem decodeRow_encMac (op : MacOp) (fmt : MacFmt) (z : Dest) (y : MacY) (x : MacX) (c : Cond) :
    decodeRow cfg (encMac op fmt z y x c) = some (decodeMacReg op fmt z y x c) := by
  simp (disch := decide) only [decodeRow, decodeTwoThree, decodeType9, encMac, BitVec.extractLsb'_append_eq_of_le,
    BitVec.extractLsb'_append_eq_of_add_le, BitVec.extractLsb'_eq_self, Nat.reduceSub]
  simp [macCode_ne_zero, macCode_high]

theorem decodeRow_encSq (op : MacOp) (fmt : MacFmt) (z : Dest) (x : MacX) (c : Cond) :
    decodeRow cfg (encSq op fmt z x c) = decodeSquare op fmt z x c := by
  simp (disch := decide) only [decodeRow, decodeTwoThree, decodeType9, encSq, BitVec.extractLsb'_append_eq_of_le,
    BitVec.extractLsb'_append_eq_of_add_le, BitVec.extractLsb'_eq_self, Nat.reduceSub]
  simp [macCode_ne_zero, macCode_high]

/-! ## Type 8 (R130): a computation beside a register move, and NONE = <ALU> -/

/-- AMF = 00000 is no computation (R167). -/
theorem Calc.ofCode_zero : Calc.ofCode 0#5 0#2 0#3 = none := rfl

theorem decodeRow_compMove_none (d r : Dreg) :
    decodeRow cfg (encode (.compMove .result none d r)) = some (.compMove .result none d r) := by
  have hword : encode (.compMove .result none d r) = 0b00101#5 ++ 0#1 ++ 0#10 ++ d.code ++ r.code := rfl
  simp (disch := decide) only [hword, decodeRow, decodeTwoThree, decodeType8, BitVec.extractLsb'_append_eq_of_le,
    BitVec.extractLsb'_append_eq_of_add_le, BitVec.extractLsb'_eq_self, Nat.reduceSub]
  simp [Calc.ofCode_zero]

theorem decodeRow_compMove_calc {z : Dest} {k : Calc} {d r : Dreg}
    (h : cfg.extAluMac = true → isNoneWord z k d r = false) :
    decodeRow cfg (encode (.compMove z k d r)) = some (.compMove z k d r) := by
  have hword : encode (.compMove z k d r) = 0b00101#5 ++ z.code ++ k.code ++ d.code ++ r.code := rfl
  simp (disch := decide) only [hword, decodeRow, decodeTwoThree, decodeType8, BitVec.extractLsb'_append_eq_of_le,
    BitVec.extractLsb'_append_eq_of_add_le, BitVec.extractLsb'_eq_self, Nat.reduceSub]
  cases k with
  | alu f x y => simpa using h
  | mac op fmt x y => simp

theorem decodeRow_noneAlu (h : cfg.extAluMac = true) (f : AluFn) (x : AluX) (y : AluY) :
    decodeRow cfg (encode (.noneAlu f x y)) = some (.noneAlu f x y) := by
  have hcalc : Calc.ofCode f.code y.code x.code = some (.alu f x y) := by
    simp [Calc.ofCode, f.code_ne_zero, f.code_high]
  have hz : Dest.ofCode 0#1 = .result := rfl
  have hd : Dreg.ofCode 10#4 = .ar := rfl
  simp (disch := decide) only [encode, decodeRow, decodeTwoThree, decodeType8, BitVec.extractLsb'_append_eq_of_le,
    BitVec.extractLsb'_append_eq_of_add_le, BitVec.extractLsb'_eq_self, Nat.reduceSub]
  simp [hcalc, hz, hd, h, isNoneWord]

/-! ## The shifter: types 16 and 15, and beside a move (types 12 to 14) -/

theorem decodeRow_encShift (f : ShFn) (x : ShX) (c : Cond) :
    decodeRow cfg (encShift f x c) = some (decodeShift f x c) := by
  simp (disch := decide) only [decodeRow, decodeLow, encShift, BitVec.extractLsb'_append_eq_of_le,
    BitVec.extractLsb'_append_eq_of_add_le, BitVec.extractLsb'_eq_self, Nat.reduceSub]
  simp

theorem decodeRow_encShiftImm (f : ShFn) (x : ShX) (e : BitVec 8) :
    decodeRow cfg (encShiftImm f x e) = decodeShiftImm f x e := by
  simp (disch := decide) only [decodeRow, decodeLow, encShiftImm, BitVec.extractLsb'_append_eq_of_le,
    BitVec.extractLsb'_append_eq_of_add_le, BitVec.extractLsb'_eq_self, Nat.reduceSub]
  simp

theorem decodeRow_encShiftDm (g : Dag) (wr : BitVec 1) (f : ShFn) (x : ShX) (d : Dreg) (i m : Fin 4) :
    decodeRow cfg (encShiftDm g wr f x d i m) =
      some (if wr = 0 then .shiftDmRead g f x d i m else .shiftDmWrite g f x d i m) := by
  simp (disch := decide) only [decodeRow, decodeOne, encShiftDm, BitVec.extractLsb'_append_eq_of_le,
    BitVec.extractLsb'_append_eq_of_add_le, BitVec.extractLsb'_eq_self, Nat.reduceSub]
  simp

theorem decodeRow_encShiftPm (wr : BitVec 1) (f : ShFn) (x : ShX) (d : Dreg) (i m : Fin 4) :
    decodeRow cfg (encShiftPm wr f x d i m) =
      some (if wr = 0 then .shiftPmRead f x d i m else .shiftPmWrite f x d i m) := by
  simp (disch := decide) only [decodeRow, decodeOne, encShiftPm, BitVec.extractLsb'_append_eq_of_le,
    BitVec.extractLsb'_append_eq_of_add_le, BitVec.extractLsb'_eq_self, Nat.reduceSub]
  simp

theorem decodeRow_shiftMove (f : ShFn) (x : ShX) (d r : Dreg) :
    decodeRow cfg (encode (.shiftMove f x d r)) = some (.shiftMove f x d r) := by
  simp (disch := decide) only [encode, decodeRow, decodeOne, BitVec.extractLsb'_append_eq_of_le,
    BitVec.extractLsb'_append_eq_of_add_le, BitVec.extractLsb'_eq_self, Nat.reduceSub]
  simp

/-! ## Memory beside a computation or alone (types 4, 5 and 1): AMF = 00000 is no computation -/

theorem decodeRow_encDm (g : Dag) (wr : BitVec 1) (z : Dest) (k : BitVec 10) (d : Dreg) (i m : Fin 4) :
    decodeRow cfg (encDm g wr z k d i m) = some (decodeMem false (encDm g wr z k d i m)) := by
  have hrow : (encDm g wr z k d i m).extractLsb' 20 4 = 3#3 ++ g.code := by
    simp (disch := decide) only [encDm, BitVec.extractLsb'_append_eq_of_le, BitVec.extractLsb'_eq_self, Nat.reduceSub]
  rw [decodeRow, hrow]
  cases g <;> rfl

theorem decodeMem_encDm_zero (g : Dag) (wr : BitVec 1) (z : Dest) (d : Dreg) (i m : Fin 4) :
    decodeMem false (encDm g wr z 0 d i m) = if wr = 1 then .dmWrite g d i m else .dmRead g d i m := by
  simp (disch := decide) only [decodeMem, encDm, BitVec.extractLsb'_append_eq_of_le,
    BitVec.extractLsb'_append_eq_of_add_le, BitVec.extractLsb'_eq_self, Nat.reduceSub]
  simp [Calc.ofCode_zero]

theorem decodeMem_encDm_calc (g : Dag) (wr : BitVec 1) (z : Dest) (k : Calc) (d : Dreg) (i m : Fin 4) :
    decodeMem false (encDm g wr z k.code d i m) =
      if wr = 1 then .compDmWrite g z k d i m else .compDmRead g z k d i m := by
  simp (disch := decide) only [decodeMem, encDm, BitVec.extractLsb'_append_eq_of_le,
    BitVec.extractLsb'_append_eq_of_add_le, BitVec.extractLsb'_eq_self, Nat.reduceSub]
  simp

theorem decodeRow_encPm_zero (wr : BitVec 1) (z : Dest) (d : Dreg) (i m : Fin 4) :
    decodeRow cfg (encPm wr z 0 d i m) = some (if wr = 1 then .pmWrite d i m else .pmRead d i m) := by
  simp (disch := decide) only [decodeRow, decodeMem, encPm, BitVec.extractLsb'_append_eq_of_le,
    BitVec.extractLsb'_append_eq_of_add_le, BitVec.extractLsb'_eq_self, Nat.reduceSub]
  simp [Calc.ofCode_zero]

theorem decodeRow_encPm_calc (wr : BitVec 1) (z : Dest) (k : Calc) (d : Dreg) (i m : Fin 4) :
    decodeRow cfg (encPm wr z k.code d i m) =
      some (if wr = 1 then .compPmWrite z k d i m else .compPmRead z k d i m) := by
  simp (disch := decide) only [decodeRow, decodeMem, encPm, BitVec.extractLsb'_append_eq_of_le,
    BitVec.extractLsb'_append_eq_of_add_le, BitVec.extractLsb'_eq_self, Nat.reduceSub]
  simp

theorem decodeRow_encDual (pd : PdReg) (dd : DdReg) (k : BitVec 10) (pi pm di dm : Fin 4) :
    decodeRow cfg (encDual pd dd k pi pm di dm) = some (decodeType1 (encDual pd dd k pi pm di dm)) := by
  have hrow : (encDual pd dd k pi pm di dm).extractLsb' 20 4 = 3#2 ++ pd.code := by
    simp (disch := decide) only [encDual, BitVec.extractLsb'_append_eq_of_le, BitVec.extractLsb'_eq_self, Nat.reduceSub]
  rw [decodeRow, hrow]
  cases pd <;> rfl

theorem decodeType1_encDual_zero (pd : PdReg) (dd : DdReg) (pi pm di dm : Fin 4) :
    decodeType1 (encDual pd dd 0 pi pm di dm) = .dualRead pd dd pi pm di dm := by
  simp (disch := decide) only [decodeType1, encDual, BitVec.extractLsb'_append_eq_of_le,
    BitVec.extractLsb'_append_eq_of_add_le, BitVec.extractLsb'_eq_self, Nat.reduceSub]
  simp [Calc.ofCode_zero]

theorem decodeType1_encDual_calc (pd : PdReg) (dd : DdReg) (k : Calc) (pi pm di dm : Fin 4) :
    decodeType1 (encDual pd dd k.code pi pm di dm) = .compDualRead k pd dd pi pm di dm := by
  simp (disch := decide) only [decodeType1, encDual, BitVec.extractLsb'_append_eq_of_le,
    BitVec.extractLsb'_append_eq_of_add_le, BitVec.extractLsb'_eq_self, Nat.reduceSub]
  simp

/-! ## Moves (types 2, 3, 6, 7, 17 and 29) -/

theorem decodeRow_dmWriteImm (g : Dag) (v : Word) (i m : Fin 4) :
    decodeRow cfg (encode (.dmWriteImm g v i m)) = some (.dmWriteImm g v i m) := by
  simp (disch := decide) only [encode, decodeRow, BitVec.extractLsb'_append_eq_of_le,
    BitVec.extractLsb'_append_eq_of_add_le, BitVec.extractLsb'_eq_self, Nat.reduceSub]
  cases g <;> rfl

theorem decodeRow_dmDirect (d : DstReg) (r : SrcReg) (a : Addr) :
    decodeRow cfg (encode (.dmReadDirect d a)) = some (.dmReadDirect d a) ∧
      decodeRow cfg (encode (.dmWriteDirect a r)) = some (.dmWriteDirect a r) := by
  simp (disch := decide) only [encode, decodeRow, decodeType3, BitVec.extractLsb'_append_eq_of_le,
    BitVec.extractLsb'_append_eq_of_add_le, BitVec.extractLsb'_eq_self, Nat.reduceSub]
  simp

theorem decodeRow_loadDreg (d : Dreg) (v : Word) :
    decodeRow cfg (encode (.loadDreg d v)) = some (.loadDreg d v) := by
  simp (disch := decide) only [encode, decodeRow, BitVec.extractLsb'_append_eq_of_le,
    BitVec.extractLsb'_append_eq_of_add_le, BitVec.extractLsb'_eq_self, Nat.reduceSub]
  simp

theorem decodeRow_loadReg (d : DstReg) (v : BitVec 14) :
    decodeRow cfg (encode (.loadReg d v)) = some (.loadReg d v) := by
  simp (disch := decide) only [encode, decodeRow, decodeTwoThree, BitVec.extractLsb'_append_eq_of_le,
    BitVec.extractLsb'_append_eq_of_add_le, BitVec.extractLsb'_eq_self, Nat.reduceSub]
  simp

theorem decodeRow_io (d : Dreg) (a : IoAddr) :
    decodeRow cfg (encode (.ioRead d a)) = some (.ioRead d a) ∧
      decodeRow cfg (encode (.ioWrite a d)) = some (.ioWrite a d) := by
  simp (disch := decide) only [encode, decodeRow, decodeLow, BitVec.extractLsb'_append_eq_of_le,
    BitVec.extractLsb'_append_eq_of_add_le, BitVec.extractLsb'_eq_self, Nat.reduceSub]
  simp

/-- No register has the code of TOPPCSTACK (R165, R395). -/
theorem Reg.code_ne_top (r : Reg) : ¬ (r.code.extractLsb' 4 2 = 3 ∧ r.code.extractLsb' 0 4 = 15) := by
  rintro ⟨hgroup, hreg⟩
  have h := Reg.ofCode_code r
  rw [hgroup, hreg] at h
  cases h

theorem SrcReg.code_ne_top (r : SrcReg) : ¬ (r.code.extractLsb' 4 2 = 3 ∧ r.code.extractLsb' 0 4 = 15) := by
  cases r with
  | reg r => exact r.code_ne_top
  | sstat => decide

theorem DstReg.code_ne_top (d : DstReg) : ¬ (d.code.extractLsb' 4 2 = 3 ∧ d.code.extractLsb' 0 4 = 15) := by
  cases d with
  | reg r => exact r.code_ne_top
  | owrcntr | ifc => decide

theorem decodeRow_regMove (d : DstReg) (r : SrcReg) :
    decodeRow cfg (encode (.regMove d r)) = some (.regMove d r) := by
  simp (disch := decide) only [encode, decodeRow, decodeLow, decodeType17, BitVec.extractLsb'_append_eq_of_le,
    BitVec.extractLsb'_append_eq_of_add_le, BitVec.extractLsb'_eq_self, Nat.reduceSub, d.code_ne_top, r.code_ne_top]
  simp

theorem decodeRow_topPcStack (r : Reg) :
    decodeRow cfg (encode (.regFromTop r)) = some (.regFromTop r) ∧
      decodeRow cfg (encode (.topFromReg r)) = some (.topFromReg r) := by
  simp (disch := decide) only [encode, decodeRow, decodeLow, decodeType17, BitVec.extractLsb'_append_eq_of_le,
    BitVec.extractLsb'_append_eq_of_add_le, BitVec.extractLsb'_eq_self, Nat.reduceSub, r.code_ne_top]
  simp

/-! ## Program flow (types 10, 11, 19, 20 and 27) -/

theorem decodeRow_jump_call (a : Addr) (c : Cond) :
    decodeRow cfg (encode (.jump a c)) = some (.jump a c) ∧
      decodeRow cfg (encode (.call a c)) = some (.call a c) := by
  simp (disch := decide) only [encode, decodeRow, decodeOne, BitVec.extractLsb'_append_eq_of_le,
    BitVec.extractLsb'_append_eq_of_add_le, BitVec.extractLsb'_eq_self, Nat.reduceSub]
  simp

theorem decodeRow_doUntil (a : Addr) (t : Term) :
    decodeRow cfg (encode (.doUntil a t)) = some (.doUntil a t) := by
  simp (disch := decide) only [encode, decodeRow, decodeOne, BitVec.extractLsb'_append_eq_of_le,
    BitVec.extractLsb'_append_eq_of_add_le, BitVec.extractLsb'_eq_self, Nat.reduceSub]
  simp

theorem decodeRow_jumpInd_callInd (i : Fin 4) (c : Cond) :
    decodeRow cfg (encode (.jumpInd i c)) = some (.jumpInd i c) ∧
      decodeRow cfg (encode (.callInd i c)) = some (.callInd i c) := by
  simp (disch := decide) only [encode, decodeRow, decodeLow, BitVec.extractLsb'_append_eq_of_le,
    BitVec.extractLsb'_append_eq_of_add_le, BitVec.extractLsb'_eq_self, Nat.reduceSub]
  simp

theorem decodeRow_rts_rti (c : Cond) :
    decodeRow cfg (encode (.rts c)) = some (.rts c) ∧ decodeRow cfg (encode (.rti c)) = some (.rti c) := by
  simp (disch := decide) only [encode, decodeRow, decodeLow, BitVec.extractLsb'_append_eq_of_le,
    BitVec.extractLsb'_append_eq_of_add_le, BitVec.extractLsb'_eq_self, Nat.reduceSub]
  simp

theorem decodeRow_flagIn (on : Bool) (a : Addr) :
    decodeRow cfg (encode (.jumpFlagIn on a)) = some (.jumpFlagIn on a) ∧
      decodeRow cfg (encode (.callFlagIn on a)) = some (.callFlagIn on a) := by
  have hjoin : (a.extractLsb' 12 2 ++ a.extractLsb' 0 12 : Addr) = a :=
    (BitVec.extractLsb'_append_extractLsb'_eq_extractLsb' rfl).trans BitVec.extractLsb'_eq_self
  simp (disch := decide) only [encode, decodeRow, decodeLow, BitVec.extractLsb'_append_eq_of_le,
    BitVec.extractLsb'_append_eq_of_add_le, BitVec.extractLsb'_eq_self, Nat.reduceSub, hjoin]
  simp

/-! ## The divide primitives, the pins and the misc instructions (types 18, 21, 23 to 26 and 31) -/

theorem decodeRow_divide (y : AluY) (x : AluX) :
    decodeRow cfg (encode (.divs y x)) = some (.divs y x) ∧ decodeRow cfg (encode (.divq x)) = some (.divq x) := by
  simp (disch := decide) only [encode, decodeRow, decodeLow, BitVec.extractLsb'_append_eq_of_le,
    BitVec.extractLsb'_append_eq_of_add_le, BitVec.extractLsb'_eq_self, Nat.reduceSub]
  simp

theorem decodeRow_flagOut (f2 f1 f0 fo : PinOp) (c : Cond) :
    decodeRow cfg (encode (.flagOut f2 f1 f0 fo c)) = some (.flagOut f2 f1 f0 fo c) := by
  simp (disch := decide) only [encode, decodeRow, decodeLow, BitVec.extractLsb'_append_eq_of_le,
    BitVec.extractLsb'_append_eq_of_add_le, BitVec.extractLsb'_eq_self, Nat.reduceSub]
  simp

theorem decodeRow_modeControl (ti mm as ol br sr gm : ModeOp) :
    decodeRow cfg (encode (.modeControl ti mm as ol br sr gm)) = some (.modeControl ti mm as ol br sr gm) := by
  simp (disch := decide) only [encode, decodeRow, decodeLow, BitVec.extractLsb'_append_eq_of_le,
    BitVec.extractLsb'_append_eq_of_add_le, BitVec.extractLsb'_eq_self, Nat.reduceSub]
  simp

theorem decodeRow_stackControl (pp lp cp : Bool) (sp : StsOp) :
    decodeRow cfg (encode (.stackControl pp lp cp sp)) = some (.stackControl pp lp cp sp) := by
  simp (disch := decide) only [encode, decodeRow, decodeLow, decodeType26, BitVec.extractLsb'_append_eq_of_le,
    BitVec.extractLsb'_append_eq_of_add_le, BitVec.extractLsb'_eq_self, Nat.reduceSub]
  simp

theorem decodeRow_modify (g : Dag) (i m : Fin 4) :
    decodeRow cfg (encode (.modify g i m)) = some (.modify g i m) := by
  simp (disch := decide) only [encode, decodeRow, decodeLow, BitVec.extractLsb'_append_eq_of_le,
    BitVec.extractLsb'_append_eq_of_add_le, BitVec.extractLsb'_eq_self, Nat.reduceSub]
  simp

end

/-! ## Every instruction -/

/-- The row of a well-formed instruction's word is the instruction: what `wellFormed` excludes is what another row of the
table reads (R197). -/
theorem decodeRow_encode (cfg : Config) (i : Instr) (h : wellFormed cfg i = true) :
    decodeRow cfg (encode i) = some i := by
  cases i with
  | addXY | addcXY | subXY | subbXY | rsubXY | rsubbXY | andXY | orXY | xorXY | passY | passZero | passX | passOne
  | passMinusOne | negX | negY | notX | notY | absX | incY | decY =>
    simp_all [encode, decodeRow_encAlu, decodeAluReg, wellFormed]
  | addXK | addcXK | subXK | subbXK | rsubXK | rsubbXK | andXK | orXK | xorXK | tstBit | setBit | clrBit | tglBit
  | passK | passKInc | passKDec =>
    simp_all [encode, decodeRow_encAluK, decodeAluConst, wellFormed]
  | mulSS | macSS | macRND =>
    refine (decodeRow_encMac ..).trans (congrArg some (if_neg ?_))
    simpa [wellFormed, imp_iff_not_or] using h
  | mulSU | mulUS | mulUU | mulRND | macSU | macUS | macUU | msubSS | msubSU | msubUS | msubUU | msubRND | clearMR
  | transferMR | transferMRRnd => exact decodeRow_encMac ..
  | sqSS | sqUU | sqRND | macSqSS | macSqUU | macSqRND | msubSqSS | msubSqUU | msubSqRND => exact decodeRow_encSq ..
  | lshiftHi | lshiftHiOr | lshiftLo | lshiftLoOr | ashiftHi | ashiftHiOr | ashiftLo | ashiftLoOr | normHi | normHiOr
  | normLo | normLoOr | expHi | expHix | expLo | expAdj => exact decodeRow_encShift ..
  | lshiftImmHi | lshiftImmHiOr | lshiftImmLo | lshiftImmLoOr | ashiftImmHi | ashiftImmHiOr | ashiftImmLo
  | ashiftImmLoOr => exact decodeRow_encShiftImm ..
  | shiftDmRead | shiftDmWrite => exact decodeRow_encShiftDm ..
  | shiftPmRead | shiftPmWrite => exact decodeRow_encShiftPm ..
  | shiftMove => exact decodeRow_shiftMove ..
  | dmRead | dmWrite => exact (decodeRow_encDm ..).trans (congrArg some (decodeMem_encDm_zero ..))
  | compDmRead | compDmWrite => exact (decodeRow_encDm ..).trans (congrArg some (decodeMem_encDm_calc ..))
  | pmRead | pmWrite => exact decodeRow_encPm_zero ..
  | compPmRead | compPmWrite => exact decodeRow_encPm_calc ..
  | dualRead => exact (decodeRow_encDual ..).trans (congrArg some (decodeType1_encDual_zero ..))
  | compDualRead => exact (decodeRow_encDual ..).trans (congrArg some (decodeType1_encDual_calc ..))
  | compMove z k d r =>
    simp only [wellFormed, Bool.and_eq_true, Bool.not_eq_true', Bool.and_eq_false_imp] at h
    obtain ⟨hz, hnone⟩ := h
    cases k with
    | none =>
      obtain rfl : z = .result := by simpa using hz
      exact decodeRow_compMove_none cfg d r
    | some k => exact decodeRow_compMove_calc cfg hnone
  | noneAlu f x y => exact decodeRow_noneAlu cfg h f x y
  | dmWriteImm => exact decodeRow_dmWriteImm ..
  | dmReadDirect d a => exact (decodeRow_dmDirect cfg d .sstat a).1
  | dmWriteDirect a r => exact (decodeRow_dmDirect cfg .ifc r a).2
  | loadDreg => exact decodeRow_loadDreg ..
  | loadReg => exact decodeRow_loadReg ..
  | ioRead => exact (decodeRow_io ..).1
  | ioWrite => exact (decodeRow_io ..).2
  | regMove => exact decodeRow_regMove ..
  | regFromTop => exact (decodeRow_topPcStack ..).1
  | topFromReg => exact (decodeRow_topPcStack ..).2
  | jump => exact (decodeRow_jump_call ..).1
  | call => exact (decodeRow_jump_call ..).2
  | doUntil => exact decodeRow_doUntil ..
  | jumpInd => exact (decodeRow_jumpInd_callInd ..).1
  | callInd => exact (decodeRow_jumpInd_callInd ..).2
  | rts => exact (decodeRow_rts_rti ..).1
  | rti => exact (decodeRow_rts_rti ..).2
  | jumpFlagIn => exact (decodeRow_flagIn ..).1
  | callFlagIn => exact (decodeRow_flagIn ..).2
  | divs y x => exact (decodeRow_divide cfg y x).1
  | divq x => exact (decodeRow_divide cfg .zero x).2
  | flagOut => exact decodeRow_flagOut ..
  | modeControl => exact decodeRow_modeControl ..
  | stackControl => exact decodeRow_stackControl ..
  | modify => exact decodeRow_modify ..
  | idleN n => cases n <;> rfl
  | satMR | idle | nop | nopType9 | enaInts | disInts => rfl

/-- Settles O58: the row answers the instruction, and the field checks pass it. -/
theorem decodeReadsBackEncode : Obligations.DecodeReadsBackEncode := by
  unfold Obligations.DecodeReadsBackEncode
  intro cfg i h
  rw [decode, decodeRow_encode cfg i h, Option.filter_some, h]
  rfl

/-- Settles O60: every word by evaluating the decoder on it. -/
theorem wordsOfTheSpecDecode : Obligations.WordsOfTheSpecDecode := by
  unfold Obligations.WordsOfTheSpecDecode
  decide

end Sys2Proof
end

section
/-!
The ALU instructions of type 9 (R205 to R220, R222 to R228): one commit of the function's result under a condition; and
MULTIPLY (R256), with its clear for yop = 0 (R260).
-/

namespace Sys2Proof.Machine

open Sys2Proof.Spec

/-! ## The commit of an ALU result under a condition (R200, R202) -/

theorem xopAlu_tested (c : Cond) (x : AluX) (s : State) : xopAlu x (tested c s) = aluXVal x s := by
  simp only [← aluXVal_eq_xopAlu, aluXVal, bank_tested]

theorem yopAlu_tested (c : Cond) (y : AluY) (s : State) : yopAlu y (tested c s) = aluYVal y s := by
  simp only [← aluYVal_eq_yopAlu, aluYVal, bank_tested]

theorem commitAlu_keepsSequencer (z : Dest) (o : AluOut) : KeepsSequencer (commitAlu z o) := fun s =>
  ⟨commitAlu_pc z o s, commitAlu_loopStack z o s, commitAlu_pcStack z o s⟩

/-- A result computed before the condition is tested is committed after it. -/
theorem runAlu_next {f : AluFn} {z : Dest} {x y : State → Word} {c : Cond} {s : State} (ha : CanAdvance s)
    (hc : CanTest c s) :
    runAlu f z x y c s = .next (advance s
      (if condTrue c s then putAlu z (aluOut f (x s) (y s) (acOf s.astat)) (tested c s) else tested c s)) := by
  rw [← alu_eq_aluOut, ← commitAlu_eq_putAlu]
  exact runCondUpdate_next (commitAlu_keepsSequencer z _) ha hc

/-- An ALU instruction whose result, on the operands before the condition is tested, is `o` of the state after. -/
theorem runs_putAlu {i : Instr} {f : AluFn} {z : Dest} {c : Cond} {x y : State → Word} {o : State → AluOut}
    (hexec : ∀ s, exec i s = runAlu f z x y c s)
    (ho : ∀ s, aluOut f (x s) (y s) (acOf s.astat) = o (tested c s)) : Runs i c fun s => putAlu z (o s) s := by
  intro s ha hc
  rw [hexec, runAlu_next ha hc, ho]

/-- The machine reads its operands before the condition is tested, the statements after: the same values. -/
theorem runs_aluEff {i : Instr} {f : AluFn} {z : Dest} {c : Cond} {x y xop yop : State → Word}
    (hexec : ∀ s, exec i s = runAlu f z x y c s) (hx : ∀ s, xop (tested c s) = x s)
    (hy : ∀ s, yop (tested c s) = y s) : Runs i c (aluEff f z xop yop) :=
  runs_putAlu hexec fun s => by rw [hx, hy, (sameButCounter_tested c s).astat]; rfl

/-- The register form of a function. -/
theorem runs_aluXY {i : Instr} {f : AluFn} {z : Dest} {x : AluX} {y : AluY} {c : Cond}
    (hexec : ∀ s, exec i s = runAlu f z (aluXVal x) (aluYVal y) c s) :
    Runs i c (aluEff f z (xopAlu x) (yopAlu y)) :=
  runs_aluEff hexec (xopAlu_tested c x) (yopAlu_tested c y)

/-- The constant form (R166). -/
theorem runs_aluXK {i : Instr} {f : AluFn} {z : Dest} {x : AluX} {k : Konst} {c : Cond}
    (hexec : ∀ s, exec i s = runAlu f z (aluXVal x) (fun _ => konstVal k) c s) :
    Runs i c (aluEff f z (xopAlu x) fun _ => constVal k) :=
  runs_aluEff hexec (xopAlu_tested c x) fun _ => (konstVal_eq_constVal k).symm

/-! ## Two operands (R205 to R213) -/

/-- Settles O1: the register and the constant form, with and without the carry. -/
theorem addStoresTheSum : Obligations.AddStoresTheSum := by
  unfold Obligations.AddStoresTheSum
  exact fun z x c => ⟨fun y => runs_aluXY fun _ => rfl, fun k => runs_aluXK fun _ => rfl,
    fun y => runs_aluXY fun _ => rfl, fun k => runs_aluXK fun _ => rfl⟩

/-- Settles O2: four differences, in the register and in the constant form. -/
theorem subtractStoresTheDifference : Obligations.SubtractStoresTheDifference := by
  unfold Obligations.SubtractStoresTheDifference
  refine fun z x c => ⟨fun y => ⟨?_, ?_, ?_, ?_⟩, fun k => ⟨?_, ?_, ?_, ?_⟩⟩
  iterate 4 exact runs_aluXY fun _ => rfl
  iterate 4 exact runs_aluXK fun _ => rfl

/-- Settles O3: three bitwise functions, in the register and in the constant form. -/
theorem logicStoresTheBits : Obligations.LogicStoresTheBits := by
  unfold Obligations.LogicStoresTheBits
  refine fun z x c => ⟨fun y => ⟨?_, ?_, ?_⟩, fun k => ⟨?_, ?_, ?_⟩⟩
  iterate 3 exact runs_aluXY fun _ => rfl
  iterate 3 exact runs_aluXK fun _ => rfl

/-! ## One selected bit (R214 to R217) -/

theorem getLsbD_konstVal (n : Fin 16) (inv : Bool) {k : Nat} (hk : k < 16) :
    (konstVal ⟨n, inv⟩).getLsbD k = (decide (k = n.val) ^^ inv) := by
  cases inv <;> simp [konstVal, hk]

/-- Settles O4: the four words are xop with a mask of one bit, which the machine combines as AND, OR or XOR. -/
theorem bitOperationsChangeOneBit : Obligations.BitOperationsChangeOneBit := by
  unfold Obligations.BitOperationsChangeOneBit
  intro z n x c s ha hc
  refine ⟨aluXVal x s &&& konstVal ⟨n, false⟩, aluXVal x s ||| konstVal ⟨n, false⟩,
    aluXVal x s &&& konstVal ⟨n, true⟩, aluXVal x s ^^^ konstVal ⟨n, false⟩, ?_⟩
  rw [← aluXVal_eq_xopAlu]
  refine ⟨fun k hk => ?_, fun k hk => ?_, fun k hk => ?_, fun k hk => ?_, ?_⟩
  · simp [getLsbD_konstVal n _ hk, Bool.and_comm]
  · simp [getLsbD_konstVal n _ hk, Bool.or_comm]
  · simp [getLsbD_konstVal n _ hk, Bool.and_comm]
  · simp [getLsbD_konstVal n _ hk, Bool.xor_comm]
  · have hrun (f : AluFn) (k : Konst) := runAlu_next (f := f) (z := z) (x := aluXVal x) (y := fun _ => konstVal k) ha hc
    exact ⟨hrun .and ⟨n, false⟩, hrun .or ⟨n, false⟩, hrun .and ⟨n, true⟩, hrun .xor ⟨n, false⟩⟩

/-! ## PASS (R218 to R220) and the functions of one operand (R222 to R228) -/

/-- Adding 0 passes the operand, with no overflow and no carry. -/
theorem sumOut_zero (x : Word) : sumOut x 0 false = plainOut x := by
  have hx := x.isLt
  have hlo := x.le_toInt
  have hhi := x.toInt_lt
  simp [sumOut, plainOut]
  omega

/-- Settles O5: PASS xop adds 0 to it, PASS 1 and PASS -1 count up and down from 0. -/
theorem passMovesItsOperand : Obligations.PassMovesItsOperand := by
  unfold Obligations.PassMovesItsOperand
  refine fun z c => ⟨fun y => ?_, fun x => ?_, ?_, ?_, ?_⟩
  · exact runs_putAlu (fun _ => rfl) fun s => by rw [yopAlu_tested]; rfl
  · exact runs_putAlu (fun _ => rfl) fun s => by rw [xopAlu_tested]; exact sumOut_zero _
  · exact runs_putAlu (fun _ => rfl) fun _ => rfl
  · exact runs_putAlu (fun _ => rfl) fun _ => (by decide : sumOut 0 1 false = plainOut 1)
  · exact runs_putAlu (fun _ => rfl) fun _ => (by decide : diffOut 0 1 true = plainOut 0xFFFF)

/-- Settles O7: each is its own function of one operand; - xop is yop - xop with yop = 0. -/
theorem oneOperandFunctions : Obligations.OneOperandFunctions := by
  unfold Obligations.OneOperandFunctions
  refine fun z c => ⟨fun x => ⟨?_, ?_, ?_⟩, fun y => ⟨?_, ?_, ?_, ?_⟩⟩
  · exact runs_putAlu (fun _ => rfl) fun s => by rw [xopAlu_tested]; rfl
  iterate 2 exact runs_aluEff (fun _ => rfl) (xopAlu_tested c x) fun _ => rfl
  iterate 4 exact runs_aluEff (fun _ => rfl) (fun _ => rfl) (yopAlu_tested c y)

/-! ## MULTIPLY (R256, R259, R260) -/

/-- The clear for yop = 0 (R260) is a product in any format that rounds nothing. -/
theorem mulEff_eq_macEff {fmt fmt' : MacFmt} {x : MacX} {y : MacY} (hzero : y = .zero → fmt' ≠ .rnd)
    (hreg : y ≠ .zero → fmt' = fmt) (z : Dest) : mulEff fmt z x y = macEff .mul fmt' z (xopMac x) (yopMac y) := by
  funext s
  unfold mulEff
  split
  · next hy =>
    subst hy
    have hout : macOut .mul fmt' (xopMac x s) (yopMac .zero s) s = 0 :=
      (macOf_eq_macOut ..).symm.trans (macOf_mul_zero fmt' _ s (hzero rfl))
    unfold macEff
    rw [hout]
    rfl
  · next hy => rw [hreg hy]

theorem runs_mulEff {i : Instr} {fmt fmt' : MacFmt} {z : Dest} {x : MacX} {y : MacY} {c : Cond}
    (hexec : ∀ s, exec i s = runMac .mul fmt' z (macXVal x) (macYVal y) c s) (hzero : y = .zero → fmt' ≠ .rnd)
    (hreg : y ≠ .zero → fmt' = fmt) : Runs i c (mulEff fmt z x y) := by
  rw [mulEff_eq_macEff hzero hreg]
  exact runs_mac hexec (xopMac_tested c x) (yopMac_tested c y)

/-- Settles O10: a product in its own format, but for (RND) with yop = 0, which the machine makes in format (SS). -/
theorem multiplyStoresTheProduct : Obligations.MultiplyStoresTheProduct := by
  unfold Obligations.MultiplyStoresTheProduct
  refine fun z x c => ⟨fun y => ⟨?_, ?_, ?_, ?_, ?_⟩, ?_, ?_, ?_⟩
  iterate 4 exact runs_mulEff (fun _ => rfl) (fun _ => by decide) fun _ => rfl
  · refine runs_mulEff (fun _ => rfl) (fun hy => ?_) fun hy => macFormat_of_ne .mul .rnd y (.inr hy)
    rw [hy, macFormat_mul_zero]
    decide
  iterate 3 exact runs_mac (fun _ => rfl) (xopMac_tested c x) (xopMac_tested c x)

end Sys2Proof.Machine
end

section
/-!
The transfers under a condition (R352): JUMP (R350, R351), CALL (R353, R354), RTS (R360) and RTI (R361), taken, not taken,
and taken at a loop's end.
-/

namespace Sys2Proof.Machine

open Sys2Proof.Spec

/-! ## A transfer and its condition -/

section
variable {p : Bool} {c : Cond} {take : State → Except Fault State} {s : State}

/-- The guard of a transfer whose condition may be tested: only a pending pop can stop it (R373, R396). -/
theorem guard_transfer (hc : CanTest c s) (hp : s.pcPopPending = true → p = false ∧ atLoopEnd s = false) :
    hazards ⟨p, false, c == .notCe⟩ s = .ok () :=
  (guard_ok_iff _ s).2 ⟨hp, fun hE => ⟨rfl, fun h => (hc (by simpa using h)).2 hE⟩⟩

theorem evalCond_canTest (hc : CanTest c s) : evalCond c s = .ok (condTrue c s, tested c s) := by
  rw [evalCond_ok c s fun h => (hc h).1, condHolds_eq_condTrue]

theorem runBranch_taken (hc : CanTest c s) (hp : s.pcPopPending = true → p = false) (hcond : condTrue c s = true)
    (hE : atLoopEnd s = false) :
    runBranch ⟨p, false, c == .notCe⟩ (evalCond c) take s = toOutcome (take (tested c s)) :=
  congrArg toOutcome
    (runTransfer_taken _ _ _ s _ (guard_transfer hc fun h => ⟨hp h, hE⟩) (hcond ▸ evalCond_canTest hc) hE)

theorem runBranch_taken_end (hc : CanTest c s) (hp : s.pcPopPending = false) (hcond : condTrue c s = true)
    (hE : atLoopEnd s = true) : runBranch ⟨p, false, c == .notCe⟩ (evalCond c) take s = .fault .loopEnd :=
  congrArg toOutcome
    (runTransfer_taken_end _ _ _ s _ (guard_transfer hc (by simp [hp])) (hcond ▸ evalCond_canTest hc) hE)

theorem runBranch_not_taken (hc : CanTest c s) (hp : s.pcPopPending = true → p = false) (hcond : condTrue c s = false)
    (ha : CanAdvance s) :
    runBranch ⟨p, false, c == .notCe⟩ (evalCond c) take s = .next (advance s (tested c s)) := by
  have hg : hazards ⟨p, false, c == .notCe⟩ s = .ok () := by
    refine guard_transfer hc fun h => ⟨hp h, ?_⟩
    by_contra hE
    obtain ⟨hno, -⟩ := ha (by simpa using hE)
    simp [hno] at h
  rw [runBranch, runTransfer_not _ _ _ _ _ (hcond ▸ evalCond_canTest hc)]
  exact runPlain_next hg ha rfl (keepsSequencer_tested c s)

end

/-! ## JUMP and CALL (R350 to R354) -/

/-- Settles O27: both forms take the same jump, to an address that the test of the condition does not change. -/
theorem jumpGoesToItsTarget : Obligations.JumpGoesToItsTarget := by
  unfold Obligations.JumpGoesToItsTarget
  intro c s a j hc hj
  have hexec : exec j s = runBranch ⟨false, false, c == .notCe⟩ (evalCond c) (takeJump a) s := by
    obtain rfl | ⟨i, rfl, rfl⟩ := hj <;> rfl
  rw [hexec]
  exact ⟨fun hcond hE => runBranch_taken hc (fun _ => rfl) hcond hE,
    fun hcond hE hp => runBranch_taken_end hc hp hcond hE,
    fun hcond ha => runBranch_not_taken hc (fun _ => rfl) hcond ha⟩

/-- Settles O28: both forms take the same call; the test of the condition leaves the pc and the PC stack. -/
theorem callPushesTheReturnAddress : Obligations.CallPushesTheReturnAddress := by
  unfold Obligations.CallPushesTheReturnAddress
  intro c s a j hc hp hj
  have hexec : exec j s = runBranch ⟨true, false, c == .notCe⟩ (evalCond c) (takeCall a) s := by
    obtain rfl | ⟨i, rfl, rfl⟩ := hj <;> rfl
  have hpending : s.pcPopPending = true → true = false := by simp [hp]
  obtain ⟨hpc, -, hstack⟩ := keepsSequencer_tested c s
  rw [hexec]
  refine ⟨fun hcond hE hroom => ?_, fun hcond hE hfull => ?_, fun hcond hE => runBranch_taken_end hc hp hcond hE,
    fun hcond ha => runBranch_not_taken hc hpending hcond ha⟩
  · rw [runBranch_taken hc hpending hcond hE, takeCall_of_lt a _ (hstack.symm ▸ hroom), hpc, hstack]
    rfl
  · rw [runBranch_taken hc hpending hcond hE, takeCall_of_full a _ (hstack.symm ▸ hfull)]
    rfl

/-! ## RTS and RTI (R360, R361) -/

theorem exec_rts (c : Cond) (s : State) :
    exec (.rts c) s = runBranch ⟨true, false, c == .notCe⟩ (evalCond c) takeReturn s := rfl

theorem exec_rti (c : Cond) (s : State) :
    exec (.rti c) s = runBranch ⟨true, false, c == .notCe⟩ (evalCond c) returnFromInterrupt s := rfl

theorem takeReturn_cons {s : State} {a : Addr} {rest : List Addr} (h : s.pcStack = a :: rest) :
    takeReturn s = .ok { s with pc := a, pcStack := rest } := by
  simp only [takeReturn, popPc_cons h]

theorem takeReturn_empty {s : State} (h : s.pcStack = []) : takeReturn s = .error (.stackUnderflow .pc) := by
  simp only [takeReturn, popPc_empty h]

/-- Settles O31: the word by the round trip of the encoder, the return by the top of the PC stack. -/
theorem returnFromSubroutine : Obligations.ReturnFromSubroutine := by
  unfold Obligations.ReturnFromSubroutine
  refine ⟨fun cfg c => decodeReadsBackEncode cfg (.rts c) rfl, fun c s hc hp => ?_⟩
  have hpending : s.pcPopPending = true → true = false := by simp [hp]
  obtain ⟨-, -, hstack⟩ := keepsSequencer_tested c s
  rw [exec_rts]
  refine ⟨fun a rest hcond hE h => ?_, fun hcond hE h => ?_,
    fun hcond ha => runBranch_not_taken hc hpending hcond ha⟩
  · rw [runBranch_taken hc hpending hcond hE, takeReturn_cons (hstack.trans h)]
    rfl
  · rw [runBranch_taken hc hpending hcond hE, takeReturn_empty (hstack.trans h)]
    rfl

theorem returnFromInterrupt_pc_empty {s : State} (h : s.pcStack = []) :
    returnFromInterrupt s = .error (.stackUnderflow .pc) := by
  simp only [returnFromInterrupt, popPc_empty h]

/-- The PC stack is popped first, so the status stack's underflow shows only where that pop succeeds (R361). -/
theorem returnFromInterrupt_status_empty {s : State} {a : Addr} {rest : List Addr} (hpc : s.pcStack = a :: rest)
    (hsts : s.statusStack = []) : returnFromInterrupt s = .error (.stackUnderflow .status) := by
  simp only [returnFromInterrupt, popPc_cons hpc]
  exact popSts_empty hsts

theorem statusStack_tested (c : Cond) (s : State) : (tested c s).statusStack = s.statusStack := by
  obtain h | ⟨-, h⟩ := tested_cases c s <;> rw [h]
  exact ceTick_statusStack s

end Sys2Proof.Machine

namespace Sys2Proof

open Sys2Proof.Machine Sys2Proof.Spec

/-- Settles O32: the word by the round trip of the encoder, the return by the tops of the two stacks. -/
theorem returnFromInterrupt : Obligations.ReturnFromInterrupt := by
  unfold Obligations.ReturnFromInterrupt
  refine ⟨fun cfg c => decodeReadsBackEncode cfg (.rti c) rfl, fun c s hc hp => ?_⟩
  have hpending : s.pcPopPending = true → true = false := by simp [hp]
  obtain ⟨-, -, hstack⟩ := keepsSequencer_tested c s
  have hstatus := statusStack_tested c s
  rw [exec_rti]
  refine ⟨fun a rest e es hcond hE h hs => ?_, fun hcond hE h => ?_, fun a rest hcond hE h hs => ?_,
    fun hcond ha => runBranch_not_taken hc hpending hcond ha⟩
  · rw [runBranch_taken hc hpending hcond hE, returnFromInterrupt_cons (hstack.trans h) (hstatus.trans hs)]
    rfl
  · rw [runBranch_taken hc hpending hcond hE, returnFromInterrupt_pc_empty (hstack.trans h)]
    rfl
  · rw [runBranch_taken hc hpending hcond hE,
      returnFromInterrupt_status_empty (hstack.trans h) (hstatus.trans hs)]
    rfl

end Sys2Proof
end

section
/-!
The end of a loop (R371, R372): repeated or left, told on the no-operations, and the counted loop of one NOP as a run.
-/

namespace Sys2Proof.Machine

open Sys2Proof.Spec

/-! ## The count (R162) -/

/-- The tests of R161 are those of the statements. -/
theorem termHolds_eq_termTrue (t : Term) (s : State) : termHolds t s = termTrue t s := by
  cases t with
  | gt =>
    simp only [termHolds, termTrue, azOf, anOf, avOf]
    cases s.astat.getLsbD 0 <;> cases s.astat.getLsbD 1 <;> cases s.astat.getLsbD 2 <;> rfl
  | ge =>
    simp only [termHolds, termTrue, anOf, avOf]
    cases s.astat.getLsbD 1 <;> cases s.astat.getLsbD 2 <;> rfl
  | ce =>
    have hone : s.cntr = 1#14 ↔ s.cntr.toNat = 1 := BitVec.toNat_inj.symm
    simp [termHolds, termTrue, Bool.beq_eq_decide_eq, hone]
  | eq | ne | le | lt | av | notAv | ac | notAc | neg | pos | mv | notMv | forever => rfl

theorem cntr_eq_one {s : State} (h : s.cntr.toNat = 1) : s.cntr = 1 := BitVec.eq_of_toNat_eq h

theorem ceTick_count {s : State} (h : 1 < s.cntr.toNat) : ceTick s = { s with cntr := s.cntr - 1 } :=
  if_neg fun h1 => by simp [h1] at h

theorem ceTick_expired {s : State} (h : s.cntr.toNat = 1) (hs : s.cntrStack = []) :
    ceTick s = { s with cntr := 0, cntrValid := false, cntrExpired := true } := by
  simp only [ceTick, cntr_eq_one h, ↓reduceIte, hs]

theorem ceTick_outer {s : State} {n : Addr} {ns : List Addr} (h : s.cntr.toNat = 1) (hs : s.cntrStack = n :: ns) :
    ceTick s = { s with cntr := n, cntrStack := ns } := by
  simp only [ceTick, cntr_eq_one h, ↓reduceIte, hs]

/-! ## NOP at the end of a loop -/

theorem exec_nopType9_eq_exec_nop (s : State) : exec .nopType9 s = exec .nop s := rfl

section
variable {s : State} {t : Term} {ls : List LoopEntry} {a : Addr} {ps : List Addr} (hp : s.pcPopPending = false)
  (hl : s.loopStack = ⟨s.pc, t⟩ :: ls) (hs : s.pcStack = a :: ps)

include hl in
theorem atLoopEnd_of_top : atLoopEnd s = true := by simp [atLoopEnd, hl]

include hl in
theorem endsOnCe_of_top : endsOnCe s = (t == .ce) := by simp [endsOnCe, hl]

include hl in
theorem loopDone_of_top : loopDone s = termTrue t s := by simp [loopDone, hl, termHolds_eq_termTrue]

include hl in
theorem nestedEnd_of_top (houter : ∀ e ∈ ls.head?, e.addr ≠ s.pc) : nestedEnd s = false := by
  cases ls with
  | nil => simp [nestedEnd, hl]
  | cons e es => simpa [nestedEnd, hl] using houter

include hp hl hs

/-- While the termination condition is false the loop is repeated from its first address (R372). -/
theorem exec_nop_again (hdone : termTrue t s = false) (hcount : t = .ce → s.cntr ≠ 0) :
    exec .nop s = .next { (if t = .ce then ceTick s else s) with pc := a } := by
  have hE := atLoopEnd_of_top hl
  have hce := endsOnCe_of_top hl
  have hd := (loopDone_of_top hl).trans hdone
  rw [exec_nop_next fun _ => ⟨hp, by simp [hs], by simpa [hce] using hcount, by simp [hd]⟩]
  by_cases h : t = .ce <;> simp [advance, hE, hce, hd, h, hs]

/-- When it is true the loop's entries are popped, and the pc goes on (R372). -/
theorem exec_nop_leave (hdone : termTrue t s = true) (houter : ∀ e ∈ ls.head?, e.addr ≠ s.pc)
    (hcount : t = .ce → s.cntr ≠ 0) :
    exec .nop s =
      .next { (if t = .ce then ceTick s else s) with pc := s.pc + 1, loopStack := ls, pcStack := ps } := by
  have hE := atLoopEnd_of_top hl
  have hce := endsOnCe_of_top hl
  have hd := (loopDone_of_top hl).trans hdone
  have hn := nestedEnd_of_top hl houter
  rw [exec_nop_next fun _ => ⟨hp, by simp [hs], by simpa [hce] using hcount, by simp [hn]⟩]
  by_cases h : t = .ce <;> simp [advance, hE, hce, hd, h, hs, hl]

end

/-! ## The count of a CE loop -/

section
variable {s : State} {ls : List LoopEntry} {a : Addr} {ps : List Addr} (hp : s.pcPopPending = false)
  (hl : s.loopStack = ⟨s.pc, .ce⟩ :: ls) (hs : s.pcStack = a :: ps)
include hp hl hs

theorem exec_nop_count (h : 1 < s.cntr.toNat) : exec .nop s = .next { s with pc := a, cntr := s.cntr - 1 } := by
  have hdone : termTrue .ce s = false := decide_eq_false (by omega)
  have hcount : s.cntr ≠ 0 := fun h0 => by simp [h0] at h
  rw [exec_nop_again hp hl hs hdone fun _ => hcount, if_pos rfl, ceTick_count h]

theorem exec_nop_last (houter : ∀ e ∈ ls.head?, e.addr ≠ s.pc) (h : s.cntr.toNat = 1) :
    exec .nop s = .next { ceTick s with pc := s.pc + 1, loopStack := ls, pcStack := ps } := by
  have hcount : s.cntr ≠ 0 := fun h0 => by simp [h0] at h
  rw [exec_nop_leave hp hl hs (decide_eq_true h) houter fun _ => hcount, if_pos rfl]

theorem exec_nop_expired (houter : ∀ e ∈ ls.head?, e.addr ≠ s.pc) (h : s.cntr.toNat = 1) (hcs : s.cntrStack = []) :
    exec .nop s = .next { s with
      pc := s.pc + 1, loopStack := ls, pcStack := ps, cntr := 0, cntrValid := false, cntrExpired := true } := by
  rw [exec_nop_last hp hl hs houter h, ceTick_expired h hcs]

theorem exec_nop_outer {n : Addr} {ns : List Addr} (houter : ∀ e ∈ ls.head?, e.addr ≠ s.pc) (h : s.cntr.toNat = 1)
    (hcs : s.cntrStack = n :: ns) :
    exec .nop s = .next { s with
      pc := s.pc + 1, loopStack := ls, pcStack := ps, cntr := n, cntrStack := ns } := by
  rw [exec_nop_last hp hl hs houter h, ceTick_outer h hcs]

end

/-- Settles O35: both no-operations do what the sequencing alone does, away from a loop's end and at it. -/
theorem loopRepeatsOrEnds : Obligations.LoopRepeatsOrEnds := by
  unfold Obligations.LoopRepeatsOrEnds
  intro i s hi
  have hexec : exec i s = exec .nop s := by
    obtain rfl | rfl := hi
    · rfl
    · exact exec_nopType9_eq_exec_nop s
  rw [hexec]
  refine ⟨exec_nop_away, fun t ls a ps hp hl hs => ⟨fun ht hdone => ?_, fun ht hdone houter => ?_, ?_, ?_, ?_⟩⟩
  · rw [exec_nop_again hp hl hs hdone fun h => absurd h ht, if_neg ht]
  · rw [exec_nop_leave hp hl hs hdone houter fun h => absurd h ht, if_neg ht]
  · rintro rfl
    exact exec_nop_count hp hl hs
  · rintro rfl h houter
    exact exec_nop_expired hp hl hs houter h
  · rintro n ns rfl h houter
    exact exec_nop_outer hp hl hs houter h

/-! ## A counted loop of one NOP, as a run -/

/-- One more NOP at the end of a run. -/
theorem nops_succ {k : Nat} {s t : State} (h : nops k s = .next t) : nops (k + 1) s = exec .nop t := by
  induction k generalizing s with
  | zero =>
    obtain rfl : s = t := by simpa [nops] using h
    cases he : exec .nop s <;> simp [nops, he]
  | succ k ih =>
    rw [nops] at h ⊢
    cases he : exec .nop s with
    | next u =>
      simp only [he] at h
      exact ih h
    | fault f => simp [he] at h
    | refused r => simp [he] at h

/-- The state with `k` taken off the count. -/
def countedDown (k : Nat) (s : State) : State := { s with cntr := s.cntr - BitVec.ofNat 14 k }

theorem countedDown_zero (s : State) : countedDown 0 s = s := by simp [countedDown]

theorem toNat_cntr_countedDown {k : Nat} {s : State} (h : k ≤ s.cntr.toNat) :
    (countedDown k s).cntr.toNat = s.cntr.toNat - k := by
  have hlt := s.cntr.isLt
  have hcntr : (countedDown k s).cntr = s.cntr - BitVec.ofNat 14 k := rfl
  rw [hcntr, BitVec.toNat_sub, BitVec.toNat_ofNat]
  omega

theorem countedDown_succ (k : Nat) (s : State) :
    { countedDown k s with cntr := (countedDown k s).cntr - 1 } = countedDown (k + 1) s := by
  have hsub : s.cntr - BitVec.ofNat 14 k - 1 = s.cntr - BitVec.ofNat 14 (k + 1) := by
    rw [BitVec.ofNat_add, BitVec.sub_sub]
    rfl
  simp only [countedDown, hsub]

section
variable {s : State} {ls : List LoopEntry} {ps : List Addr} (hp : s.pcPopPending = false)
  (hl : s.loopStack = ⟨s.pc, .ce⟩ :: ls) (hs : s.pcStack = s.pc :: ps)
include hp hl hs

/-- While passes remain, a run of `k` of them has counted CNTR down by `k`, and changed nothing else. -/
theorem nops_count {k : Nat} (h : k < s.cntr.toNat) : nops k s = .next (countedDown k s) := by
  induction k with
  | zero => rw [countedDown_zero]; rfl
  | succ k ih =>
    have hcount : 1 < (countedDown k s).cntr.toNat := by
      rw [toNat_cntr_countedDown (by omega)]
      omega
    rw [nops_succ (ih (by omega)), ← countedDown_succ]
    exact exec_nop_count (s := countedDown k s) hp hl hs hcount

end

/-- Settles O36: the first passes count down, the last one meets a count of 1 and leaves the loop. -/
theorem countedLoopRunsCntrTimes : Obligations.CountedLoopRunsCntrTimes := by
  unfold Obligations.CountedLoopRunsCntrTimes
  intro s n ls ps hl hs hp houter hn
  have hpasses {k : Nat} (hk : k ≤ n) : nops k s = .next (countedDown k s) := nops_count hp hl hs (by omega)
  have hlast : (countedDown n s).cntr.toNat = 1 := by
    rw [toNat_cntr_countedDown (by omega)]
    omega
  refine ⟨fun k hk => hpasses hk, fun hcs => ?_, fun m ms hcs => ?_⟩
  · rw [nops_succ (hpasses le_rfl)]
    exact exec_nop_expired (s := countedDown n s) hp hl hs houter hlast hcs
  · rw [nops_succ (hpasses le_rfl)]
    exact exec_nop_outer (s := countedDown n s) hp hl hs houter hlast hcs

end Sys2Proof.Machine
end

section
/-!
What the sequencer refuses (R162, R373, R396): the guard of every instruction, the hazards it raises, and the decision of
`next_pc` where no way on is defined.
-/

namespace Sys2Proof.Machine

open Sys2Proof.Spec

/-! ## The guard of an instruction -/

/-- What an instruction is to the hazards of R373 and R396. -/
def guardOf (i : Instr) : Guard :=
  match i with
  | .call _ c | .callInd _ c | .rts c | .rti c => ⟨true, false, c == .notCe⟩
  | .callFlagIn .. => ⟨true, false, false⟩
  | .doUntil .. | .regFromTop .. | .topFromReg .. => ⟨true, true, false⟩
  | .idle | .idleN .. => ⟨false, true, false⟩
  | .stackControl pp lp cp _ => controlGuard pp lp cp
  | .regMove d _ | .loadReg d _ | .dmReadDirect d _ => moveGuard d
  | i => ⟨false, false, condOf i == some .notCe⟩

/-- An instruction with the guard `g`: it is sequenced, or a transfer, which may not end a loop (R373 item 1). -/
inductive Guarded (i : Instr) (s : State) (g : Guard) : Prop
  | plain (eff : State → Except Fault State) (h : exec i s = runPlain g eff s)
  | branch (test : State → Except Fault (Bool × State)) (take : State → Except Fault State)
      (hend : endsAnyLoop i = false) (h : exec i s = runBranch g test take s)

/-- Every instruction that two writers do not stop before (R422). -/
theorem exec_guarded (i : Instr) (s : State) (h : ¬ twoWriters i) : Guarded i s (guardOf i) := by
  cases i with
  | jump | jumpInd | call | callInd | jumpFlagIn | callFlagIn | rts | rti => exact .branch _ _ rfl rfl
  | compDmRead _ z k d | compPmRead z k d => exact .plain _ (unlessTwoWriters_pass (calcWrites_eq_true_iff z k d) h _ s)
  | compMove z k d r =>
    cases k with
    | none => exact .plain _ rfl
    | some k => exact .plain _ (unlessTwoWriters_pass (calcWrites_eq_true_iff z k d) h _ s)
  | shiftDmRead _ f _ d | shiftPmRead f _ d | shiftMove f _ d =>
    exact .plain _ (unlessTwoWriters_pass (shiftWrites_eq_true_iff f d) h _ s)
  | _ => exact .plain _ rfl

/-- A hazard of its guard stops an instruction before its effect or its test (R459 item 4). -/
theorem exec_hazard {i : Instr} {s : State} {e : Fault} (hpass : ¬ twoWriters i)
    (h : hazards (guardOf i) s = .error e) : exec i s = .fault e := by
  obtain ⟨eff, hexec⟩ | ⟨test, take, -, hexec⟩ := exec_guarded i s hpass
  · simp only [hexec, runPlain, runSeq, h, toOutcome]
  · simp only [hexec, runBranch, runTransfer, h, toOutcome]

/-! ## The hazards (R373, R396) -/

section
variable {g : Guard} {s : State}

/-- While a pop is pending, neither a use of the PC stack nor a loop's end is let through (R396). -/
theorem hazards_pending (hp : s.pcPopPending = true) (h : g.pcStack = true ∨ atLoopEnd s = true) :
    hazards g s = .error .pcPopHazard :=
  if_pos (by simpa [hp] using h)

/-- A forbidden last instruction of a loop (R373). -/
theorem hazards_loopEnd (hp : s.pcPopPending = false) (hE : atLoopEnd s = true)
    (h : g.forbidden = true ∨ (g.counter = true ∧ endsOnCe s = true)) : hazards g s = .error .loopEnd := by
  simp only [hazards, hp, hE, Bool.false_and, Bool.false_eq_true, ↓reduceIte, Bool.true_and]
  exact if_pos (by simpa using h)

end

/-! ## Conditional instructions (R162) -/

/-- An instruction with the condition `c` tests it, as a sequenced instruction or as a transfer. -/
inductive Conditional (i : Instr) (s : State) (c : Cond) : Prop
  | plain (f : State → Except Fault State) (hg : guardOf i = .cond c)
      (h : exec i s = runPlain (.cond c) (ifCond c f) s)
  | branch (p : Bool) (take : State → Except Fault State) (hg : guardOf i = ⟨p, false, c == .notCe⟩)
      (h : exec i s = runBranch ⟨p, false, c == .notCe⟩ (evalCond c) take s)

theorem exec_conditional {i : Instr} {c : Cond} (s : State) (h : condOf i = some c) : Conditional i s c := by
  cases i with
  | jump | jumpInd | call | callInd | rts | rti => cases h; exact .branch _ _ rfl rfl
  | _ => cases h <;> exact .plain _ rfl rfl

/-- No multifunction instruction has a condition. -/
theorem not_twoWriters_of_condOf {i : Instr} {c : Cond} (h : condOf i = some c) : ¬ twoWriters i := by
  cases i with
  | compDmRead | compPmRead | compMove | shiftDmRead | shiftPmRead | shiftMove => cases h
  | _ => exact id

/-- A test of NOT CE may not end a CE loop (R373 item 4). -/
theorem exec_notCe_loopEnd {i : Instr} {s : State} (h : condOf i = some .notCe) (hp : s.pcPopPending = false)
    (hE : atLoopEnd s = true) (hce : endsOnCe s = true) : exec i s = .fault .loopEnd := by
  have hcounter : (guardOf i).counter = true := by
    obtain ⟨_, hg, -⟩ | ⟨_, _, hg, -⟩ := exec_conditional s h <;> rw [hg] <;> rfl
  exact exec_hazard (not_twoWriters_of_condOf h) (hazards_loopEnd hp hE (.inr ⟨hcounter, hce⟩))

/-- Away from a loop's end, with no pop pending, a test of NOT CE with CNTR = 0 is refused (R162). -/
theorem exec_notCe_zero {i : Instr} {s : State} (h : condOf i = some .notCe) (hp : s.pcPopPending = false)
    (hE : atLoopEnd s = false) (hzero : s.cntr = 0) : exec i s = .fault .ceWithZeroCounter := by
  have htest : evalCond .notCe s = .error .ceWithZeroCounter := by simp [evalCond, hzero]
  obtain ⟨f, -, hexec⟩ | ⟨p, take, -, hexec⟩ := exec_conditional s h
  · rw [hexec]
    exact runPlain_away_fault hE hp (by simp only [ifCond, htest])
  · simp only [hexec, runBranch, runTransfer, guard_away _ s hE (by simp [hp]), htest, toOutcome]

/-! ## The instructions that may end any loop, where no way on is defined (R162, R373 item 5, R454) -/

theorem writesCounter_eq (d : DstReg) : writesCounter d = (d == .reg .cntr || d == .owrcntr) := by
  cases d with
  | reg r => cases r <;> rfl
  | owrcntr | ifc => rfl

theorem guardOf_of_endsAnyLoop {i : Instr} (h : endsAnyLoop i = true) : guardOf i = .plain := by
  obtain ⟨hform, hcond⟩ := Bool.and_eq_true_iff.1 h
  cases i with
  | call | callInd | callFlagIn | rts | rti | doUntil | idle | idleN | regFromTop | topFromReg => cases hform
  | stackControl pp lp cp sp =>
    obtain ⟨⟨rfl, rfl⟩, rfl⟩ : (pp = false ∧ lp = false) ∧ cp = false := by simpa using hform
    rfl
  | regMove d | loadReg d | dmReadDirect d =>
    have hd : writesCounter d = false := (writesCounter_eq d).trans (by simpa using hform)
    exact congrArg (Guard.mk false false) hd
  | _ => exact congrArg (Guard.mk false false) (by simpa using hcond)

theorem exec_of_endsAnyLoop {i : Instr} (s : State) (h : endsAnyLoop i = true) (hpass : ¬ twoWriters i) :
    ∃ eff, exec i s = runPlain .plain eff s := by
  obtain ⟨eff, hexec⟩ | ⟨_, _, hend, -⟩ := exec_guarded i s hpass
  · exact ⟨eff, guardOf_of_endsAnyLoop h ▸ hexec⟩
  · rw [h] at hend
    cases hend

/-- Where the sequencing decides on a fault, an instruction with no hazard of its own answers it, before its effect. -/
theorem runPlain_nextSeq_fault {eff : State → Except Fault State} {s : State} {e : Fault} (hp : s.pcPopPending = false)
    (h : nextSeq s = .error e) : runPlain .plain eff s = .fault e := by
  simp only [runPlain, runSeq, Guard.plain, guard_of_no_pop false hp, h, toOutcome]

/-- CE tested with a count of 0 (R162). -/
theorem nextSeq_zero {s : State} (hE : atLoopEnd s = true) (hce : endsOnCe s = true) (hzero : s.cntr = 0) :
    nextSeq s = .error .ceWithZeroCounter := by
  unfold nextSeq
  cases hl : s.loopStack with
  | nil => simp [atLoopEnd, hl] at hE
  | cons e rest => simp_all [atLoopEnd, endsOnCe]

/-- Two loops that end together (R373 item 5). -/
theorem nextSeq_nested {s : State} (hE : atLoopEnd s = true) (hdone : loopDone s = true) (hn : nestedEnd s = true)
    (hcount : endsOnCe s = true → s.cntr ≠ 0) : nextSeq s = .error .loopEnd := by
  unfold nextSeq
  match hl : s.loopStack with
  | [] => simp [atLoopEnd, hl] at hE
  | [e] => simp [nestedEnd, hl] at hn
  | e :: o :: rest => simp_all [atLoopEnd, endsOnCe, loopDone, nestedEnd]

/-- A loop with no entry on the PC stack (R454). -/
theorem nextPc_empty {s : State} {ce : Bool} {q : Seq} (hq : q = .again ce ∨ q = .leave ce) (hl : s.loopStack ≠ [])
    (hs : s.pcStack = []) : nextPc q s = .error (.stackUnderflow .pc) := by
  obtain ⟨l, ls, hl⟩ := List.exists_cons_of_ne_nil hl
  obtain rfl | rfl := hq <;> cases ce <;> simp [nextPc, topPc, popLoop, popPc, hs, hl]

/-- The decision of `next_pc` does not read the PC stack, so an empty one shows only when it is carried out (R372). -/
theorem nextSeq_empty {s : State} (hE : atLoopEnd s = true) (hp : s.pcPopPending = false)
    (hcount : endsOnCe s = true → s.cntr ≠ 0) (hn : nestedEnd s = false) :
    ∃ ce q, nextSeq s = .ok q ∧ (q = .again ce ∨ q = .leave ce) := by
  have ha : CanAdvance { s with pcStack := [0] } := fun _ => ⟨hp, by simp, hcount, fun _ => hn⟩
  refine ⟨endsOnCe s, _, nextSeq_end { s with pcStack := [0] } hE ha, ?_⟩
  split
  · exact .inr rfl
  · exact .inl rfl

theorem exec_nop_empty {s : State} (hE : atLoopEnd s = true) (hp : s.pcPopPending = false) (hs : s.pcStack = [])
    (hcount : endsOnCe s = true → s.cntr ≠ 0) (hn : nestedEnd s = false) :
    exec .nop s = .fault (.stackUnderflow .pc) := by
  obtain ⟨ce, q, hseq, hq⟩ := nextSeq_empty hE hp hcount hn
  have hl : s.loopStack ≠ [] := fun h => by simp [atLoopEnd, h] at hE
  have hexec : exec .nop s = runPlain ⟨false, false, false⟩ (fun t => .ok t) s := rfl
  simp only [hexec, runPlain, runSeq, guard_of_no_pop false hp, hseq, nextPc_empty hq hl hs, toOutcome]

/-! ## All refusals together -/

/-- Settles O37: the hazards by the guard of the instruction, the rest by the test of its condition or by the sequencing. -/
theorem sequencerRefusals : Obligations.SequencerRefusals := by
  unfold Obligations.SequencerRefusals
  refine ⟨fun s hE hp => ⟨fun a t => ?_, ?_, fun n => ?_, fun c hc hcond => ?_, fun pp lp cp sp h => ?_, fun r => ?_,
      fun hce => ?_, fun i hi hpass => ?_, fun hs hcount hn => exec_nop_empty hE hp hs hcount hn⟩,
    fun i s h hp hE hzero => exec_notCe_zero h hp hE hzero, fun s hp => ?_⟩
  · exact exec_hazard nofun (hazards_loopEnd hp hE (.inl rfl))
  · exact exec_hazard nofun (hazards_loopEnd hp hE (.inl rfl))
  · exact exec_hazard nofun (hazards_loopEnd hp hE (.inl rfl))
  · exact ⟨runBranch_taken_end hc hp hcond hE, runBranch_taken_end hc hp hcond hE⟩
  · exact exec_hazard nofun (hazards_loopEnd hp hE (.inl h))
  · exact ⟨exec_hazard nofun (hazards_loopEnd hp hE (.inl rfl)), exec_hazard nofun (hazards_loopEnd hp hE (.inl rfl))⟩
  · have hmove {d : DstReg} (h : d = .reg .cntr ∨ d = .owrcntr) : (moveGuard d).counter = true := by
      obtain rfl | rfl := h <;> rfl
    exact ⟨fun d v h => exec_hazard nofun (hazards_loopEnd hp hE (.inr ⟨hmove h, hce⟩)),
      fun d r h => exec_hazard nofun (hazards_loopEnd hp hE (.inr ⟨hmove h, hce⟩)),
      fun d a h => exec_hazard nofun (hazards_loopEnd hp hE (.inr ⟨hmove h, hce⟩)),
      fun lp sp pp => exec_hazard nofun (hazards_loopEnd hp hE (.inr ⟨rfl, hce⟩)),
      fun i h => exec_notCe_loopEnd h hp hE hce⟩
  · obtain ⟨eff, hexec⟩ := exec_of_endsAnyLoop s hi hpass
    rw [hexec]
    exact ⟨fun hce hzero => runPlain_nextSeq_fault hp (nextSeq_zero hE hce hzero),
      fun hdone hn hcount => runPlain_nextSeq_fault hp (nextSeq_nested hE hdone hn hcount)⟩
  · have huse {i : Instr} (hpass : ¬ twoWriters i) (h : (guardOf i).pcStack = true) :
        exec i s = .fault .pcPopHazard := exec_hazard hpass (hazards_pending hp (.inl h))
    exact ⟨fun _ _ => huse nofun rfl, fun _ _ => huse nofun rfl, fun _ _ => huse nofun rfl,
      fun _ => ⟨huse nofun rfl, huse nofun rfl⟩, fun _ _ => huse nofun rfl, fun _ _ _ => huse nofun rfl,
      fun _ => ⟨huse nofun rfl, huse nofun rfl⟩,
      fun hE i hpass => exec_hazard hpass (hazards_pending hp (.inr hE))⟩

end Sys2Proof.Machine
end

section
/-!
The reserved words (R180 items 1 to 6, R121): row by row of the decoder, a word is read as a well-formed instruction exactly
when its fixed bits match and none of its fields is reserved.
-/

namespace Sys2Proof

open Sys2Proof.Spec

section
variable (cfg : Config) {w : PWord}

/-! ## The row and the field checks -/

/-- A word is refused when its row answers nothing, or an instruction that the field checks do not pass. -/
theorem decode_eq_none_iff (w : PWord) : decode cfg w = none ↔ (decodeRow cfg w).any (wellFormed cfg) = false := by
  rw [decode]
  cases decodeRow cfg w with
  | none => simp
  | some i => simp

/-- The top byte is its two nibbles. -/
theorem topByte_eq (w : PWord) : w.extractLsb' 16 8 = w.extractLsb' 20 4 ++ w.extractLsb' 16 4 :=
  (BitVec.extractLsb'_append_extractLsb'_eq_extractLsb' (x := w) (start₂ := 20) (start₁ := 16) (len₁ := 4) (len₂ := 4)
    rfl).symm

/-- A field of a field. -/
theorem extractLsb'_extractLsb'_of_le {n a k b m : Nat} (v : BitVec n) (h : b + m ≤ k) :
    (v.extractLsb' a k).extractLsb' b m = v.extractLsb' (a + b) m := by
  apply BitVec.eq_of_getLsbD_eq
  intro i hi
  simp only [BitVec.getLsbD_extractLsb', hi, decide_true, Bool.true_and, Nat.add_assoc]
  rw [decide_eq_true (by omega), Bool.true_and]

/-! ## What passes the field checks -/

theorem any_ite_none {i : Option Instr} (p : Prop) [Decidable p] :
    (if p then i else none).any (wellFormed cfg) = (decide p && i.any (wellFormed cfg)) := by
  split <;> simp [*]

theorem wellFormed_ite {i j : Instr} {b : Bool} {p : Prop} [Decidable p] (hi : wellFormed cfg i = b)
    (hj : wellFormed cfg j = b) : wellFormed cfg (if p then i else j) = b := by
  split <;> assumption

theorem any_map_of_forall {α : Type} {o : Option α} {g : α → Instr} {b : Bool} (h : ∀ x, wellFormed cfg (g x) = b) :
    (o.map g).any (wellFormed cfg) = (o.isSome && b) := by
  cases o <;> simp [h]

theorem any_bind_of_forall {α : Type} {o : Option α} {g : α → Option Instr} {b : Bool}
    (h : ∀ x, (g x).any (wellFormed cfg) = b) : (o.bind g).any (wellFormed cfg) = (o.isSome && b) := by
  cases o <;> simp [h]

/-! ## Codes that name nothing -/

theorem PinOp.ofCode_beq_keep (c : BitVec 2) : (PinOp.ofCode c == .keep) = (c == 0) := by revert c; decide

/-- FO2, FO1 and FO0 side by side. -/
theorem pins_beq_keep (v : BitVec 6) :
    (v.extractLsb' 4 2 == 0 && v.extractLsb' 2 2 == 0 && v.extractLsb' 0 2 == 0) = (v == 0) := by revert v; decide

theorem SlowDiv.ofCode_isSome (c : BitVec 4) :
    (SlowDiv.ofCode c).isSome = (c == 1 || c == 2 || c == 4 || c == 8) := by revert c; decide

theorem AluY.ofCode_divisor (c : BitVec 2) :
    (AluY.ofCode c == .ay1 || AluY.ofCode c == .af) = !(c == 0 || c == 3) := by revert c; decide

theorem ShX.ofCode_isSome (c : BitVec 3) : (ShX.ofCode c).isSome = !(c == 1) := by revert c; decide

theorem DstReg.ofCode_isSome (rgp : BitVec 2) (reg : BitVec 4) :
    (DstReg.ofCode rgp reg).isSome = !noDestination rgp reg := by revert rgp reg; decide

theorem SrcReg.ofCode_isSome (rgp : BitVec 2) (reg : BitVec 4) :
    (SrcReg.ofCode rgp reg).isSome = !noSource rgp reg := by revert rgp reg; decide

theorem DstReg.ofCode_any_not_isDreg (rgp : BitVec 2) (reg : BitVec 4) :
    ((DstReg.ofCode rgp reg).any fun d => !d.isDreg) = !(rgp == 0 || noDestination rgp reg) := by
  revert rgp reg; decide

theorem Reg.ofCode_destination_any (rgp : BitVec 2) (reg : BitVec 4) :
    ((Reg.ofCode rgp reg).any fun r => !r.inGroup3) = !(rgp == 3 || noDestination rgp reg) := by
  revert rgp reg; decide

theorem Reg.ofCode_source_any (rgp : BitVec 2) (reg : BitVec 4) :
    ((Reg.ofCode rgp reg).any fun r => !r.inGroup3) = !(rgp == 3 || noSource rgp reg) := by
  revert rgp reg; decide

/-! ## Rows that read every word -/

theorem wellFormed_decodeShift (f : ShFn) (x : ShX) (c : Cond) : wellFormed cfg (decodeShift f x c) = true := by
  cases f <;> rfl

theorem wellFormed_decodeMem (pm : Bool) (w : PWord) : wellFormed cfg (decodeMem pm w) = true := by
  unfold decodeMem
  dsimp only
  split <;> cases pm <;> simp only [Bool.false_eq_true, ↓reduceIte] <;> split <;> rfl

theorem wellFormed_decodeType1 (w : PWord) : wellFormed cfg (decodeType1 w) = true := by
  unfold decodeType1
  dsimp only
  split <;> rfl

/-- The NONE word is read as NONE on the parts that have it, so type 8 has no reserved word (R197, R240). -/
theorem wellFormed_decodeType8 (w : PWord) : wellFormed cfg (decodeType8 cfg w) = true := by
  unfold decodeType8
  dsimp only
  split
  · simp [wellFormed, isNoneWord]
  · next hk =>
    split
    · next h => exact (Bool.and_eq_true_iff.1 h).1
    · next h => simpa [wellFormed, hk, imp_iff_not_or] using h
  · next hk => simp [wellFormed, hk, isNoneWord]

/-! ## Type 9 (R131, R166, R259) -/

/-- With yop = 0 the register form is read as the row that names that (R218 to R222). -/
theorem wellFormed_decodeAluReg (f : AluFn) (z : Dest) (y : AluY) (x : AluX) (c : Cond) :
    wellFormed cfg (decodeAluReg f z y x c) = true := by
  cases f with
  | passY | incY | add | decY | rsub =>
    simp only [decodeAluReg]
    split
    · rfl
    · next hy => exact bne_iff_ne.2 hy
  | addC | notY | negY | subC | sub | rsubC | notX | and | or | xor | abs => rfl

/-- With xop = MX0 and yop = 0 the register form is read as the row that names that (R260, R261). -/
theorem wellFormed_decodeMacReg (op : MacOp) (fmt : MacFmt) (z : Dest) (y : MacY) (x : MacX) (c : Cond) :
    wellFormed cfg (decodeMacReg op fmt z y x c) = true := by
  have hpair {i j : Instr} (hi : wellFormed cfg i = true) (hj : wellFormed cfg j = !(x == .mx0 && y == .zero)) :
      wellFormed cfg (if x = .mx0 ∧ y = .zero then i else j) = true := by
    split
    · exact hi
    · next hxy => simpa [hj, imp_iff_not_or] using hxy
  match op, fmt with
  | .mul, .ss | .acc, .ss | .acc, .rnd => exact hpair rfl rfl
  | .mul, .su | .mul, .us | .mul, .uu | .mul, .rnd | .acc, .su | .acc, .us | .acc, .uu => rfl
  | .sub, .ss | .sub, .su | .sub, .us | .sub, .uu | .sub, .rnd => rfl

/-- The ALU functions that take a constant (R166). -/
def AluFn.takesConst : AluFn → Bool
  | .notY | .negY | .notX | .abs => false
  | _ => true

theorem decodeAluConst_any (f : AluFn) (z : Dest) (k : Konst) (x : AluX) (c : Cond) :
    (decodeAluConst f z k x c).any (wellFormed cfg) = (f.takesConst && cfg.extAluMac) := by
  obtain ⟨n, inv⟩ := k
  cases f with
  | or | xor => cases inv <;> simp [decodeAluConst, wellFormed, AluFn.takesConst]
  | and => cases inv <;> rfl
  | _ => rfl

/-- The MAC formats that square (R259). -/
def MacFmt.squares : MacFmt → Bool
  | .su | .us => false
  | _ => true

theorem decodeSquare_any (op : MacOp) (fmt : MacFmt) (z : Dest) (x : MacX) (c : Cond) :
    (decodeSquare op fmt z x c).any (wellFormed cfg) = (fmt.squares && cfg.extAluMac) := by
  cases op <;> cases fmt <;> rfl

theorem takesConst_ofCode {amf : BitVec 5} (h : amf.extractLsb' 4 1 = 1) :
    (AluFn.ofCode (amf.extractLsb' 0 4)).takesConst = !([0b10100, 0b10101, 0b11011, 0b11111].contains amf.toNat) := by
  revert amf; decide

theorem squares_macOfCode {amf : BitVec 5} (h : amf.extractLsb' 4 1 ≠ 1) :
    (macOfCode amf).2.squares = !([5, 6, 9, 10, 13, 14].contains amf.toNat) := by
  revert amf; decide

theorem Cond.ofCode_eq_notCe_iff (c : BitVec 4) : Cond.ofCode c = .notCe ↔ c = 14 := by revert c; decide

theorem le_toNat_iff_high (amf : BitVec 5) : 16 ≤ amf.toNat ↔ amf.extractLsb' 4 1 = 1 := by revert amf; decide

/-- Bits 7 to 4 of a type 9 word are CC and BO (R131). -/
theorem ccBo_eq_zero_iff (v : BitVec 4) : v = 0 ↔ v.extractLsb' 2 2 = 0 ∧ v.extractLsb' 0 2 = 0 := by revert v; decide

theorem ccBo_eq_one_iff (v : BitVec 4) : v = 1 ↔ v.extractLsb' 2 2 = 0 ∧ v.extractLsb' 0 2 = 1 := by revert v; decide

theorem decodeType9_any (w : PWord) : (decodeType9 w).any (wellFormed cfg) = !type9Reserved cfg w := by
  have hcc : w.extractLsb' 6 2 = (w.extractLsb' 4 4).extractLsb' 2 2 :=
    (extractLsb'_extractLsb'_of_le (a := 4) (b := 2) w (by decide)).symm
  have hbo : w.extractLsb' 4 2 = (w.extractLsb' 4 4).extractLsb' 0 2 :=
    (extractLsb'_extractLsb'_of_le (a := 4) (b := 0) w (by decide)).symm
  have hlow : w.extractLsb' 4 1 = (w.extractLsb' 4 2).extractLsb' 0 1 :=
    (extractLsb'_extractLsb'_of_le (a := 4) (b := 0) w (by decide)).symm
  have hamf : (w.extractLsb' 13 5).toNat = 0 ↔ w.extractLsb' 13 5 = 0 := BitVec.toNat_inj (y := 0#5)
  simp only [decodeType9, type9Reserved, hamf, le_toNat_iff_high, hlow, hcc, hbo]
  generalize w.extractLsb' 4 4 = v
  generalize w.extractLsb' 13 5 = amf
  by_cases h0 : amf = 0
  · rw [if_pos h0, if_pos h0]
    by_cases hc : w.extractLsb' 0 4 = 14
    · rw [if_pos ((Cond.ofCode_eq_notCe_iff _).2 hc), hc]
      rfl
    · rw [if_neg (mt (Cond.ofCode_eq_notCe_iff _).1 hc), beq_false_of_ne hc]
      rfl
  rw [if_neg h0, if_neg h0]
  by_cases hreg : v.extractLsb' 2 2 = 0 ∧ v.extractLsb' 0 2 = 0
  · simp only [if_pos hreg, if_pos ((ccBo_eq_zero_iff v).2 hreg)]
    split
    · exact wellFormed_decodeAluReg ..
    · exact wellFormed_decodeMacReg ..
  simp only [if_neg hreg, if_neg (mt (ccBo_eq_zero_iff v).1 hreg)]
  by_cases hhigh : amf.extractLsb' 4 1 = 1
  · rw [if_pos hhigh, if_pos hhigh, ← takesConst_ofCode hhigh]
    by_cases hconst : (v.extractLsb' 0 2).extractLsb' 0 1 = 1
    · rw [if_pos hconst, decodeAluConst_any, hconst, Bool.not_not]
      rfl
    · rw [if_neg hconst, beq_false_of_ne hconst]
      rfl
  · rw [if_neg hhigh, if_neg hhigh, ← squares_macOfCode hhigh]
    have hform : (v.extractLsb' 2 2 = 0 ∧ v.extractLsb' 0 2 = 1 ∧ w.extractLsb' 11 2 = 0) ↔
        (v = 1 ∧ w.extractLsb' 11 2 = 0) := by rw [ccBo_eq_one_iff, and_assoc]
    rw [if_congr hform rfl rfl, Bool.not_not]
    by_cases hsquare : v = 1 ∧ w.extractLsb' 11 2 = 0
    · obtain ⟨hv, hyy⟩ := hsquare
      rw [if_pos ⟨hv, hyy⟩, decodeSquare_any, hv, hyy]
      simp
    · rw [if_neg hsquare]
      obtain hv | hyy := not_and_or.1 hsquare
      · rw [beq_false_of_ne hv]
        rfl
      · rw [beq_false_of_ne hyy]
        simp

/-! ## Type 17 (R139, R395) and type 26 (R148) -/

theorem decodeType17_any (w : PWord) :
    (decodeType17 w).any (wellFormed cfg) = (w.extractLsb' 12 4 == 0 && !type17Reserved w) := by
  unfold decodeType17 type17Reserved
  dsimp only
  generalize w.extractLsb' 10 2 = dg
  generalize w.extractLsb' 8 2 = sg
  generalize w.extractLsb' 4 4 = dr
  generalize w.extractLsb' 0 4 = sr
  by_cases hfix : w.extractLsb' 12 4 = 0
  · rw [if_neg (not_not.2 hfix), hfix]
    by_cases hs : sg = 3 ∧ sr = 15
    · rw [if_pos hs, if_pos hs, Option.any_map]
      exact Reg.ofCode_destination_any dg dr
    rw [if_neg hs, if_neg hs]
    by_cases hd : dg = 3 ∧ dr = 15
    · rw [if_pos hd, if_pos hd, Option.any_map]
      exact Reg.ofCode_source_any sg sr
    rw [if_neg hd, if_neg hd, Bool.not_or, ← DstReg.ofCode_isSome, ← SrcReg.ofCode_isSome]
    cases DstReg.ofCode dg dr <;> cases SrcReg.ofCode sg sr <;> rfl
  · rw [if_pos hfix, beq_false_of_ne hfix]
    rfl

theorem decodeType26_any (w : PWord) :
    (decodeType26 w).any (wellFormed cfg) =
      ((w.extractLsb' 5 11 == 0 || w.extractLsb' 0 16 == 0x0040 || w.extractLsb' 0 16 == 0x0060) &&
        !(!cfg.extAluMac && w.extractLsb' 5 11 != 0)) := by
  unfold decodeType26
  by_cases hstack : w.extractLsb' 5 11 = 0
  · rw [if_pos hstack, hstack]
    simp [wellFormed]
  rw [if_neg hstack, beq_false_of_ne hstack, bne_iff_ne.2 hstack]
  by_cases hena : w.extractLsb' 0 16 = 0x0060
  · rw [if_pos hena, hena]
    simp [wellFormed]
  rw [if_neg hena, beq_false_of_ne hena]
  by_cases hdis : w.extractLsb' 0 16 = 0x0040
  · rw [if_pos hdis, hdis]
    simp [wellFormed]
  rw [if_neg hdis, beq_false_of_ne hdis]
  rfl

/-! ## Top bytes 00 to 0F (types 15 to 31) -/

/-- The words with top byte 02 (R151, R358): the flag pins, of which FL0 to FL2 are a part's option, and the idle forms. -/
theorem decodeLow_pinsIdle_any (hl : w.extractLsb' 16 4 = 2) :
    (decodeLow w).any (wellFormed cfg) =
      ((w.extractLsb' 12 4 == 0 || w.extractLsb' 4 12 == 0x800) &&
        !(if w.extractLsb' 15 1 = 0 then !cfg.hasFl && w.extractLsb' 6 6 != 0
          else !(w.extractLsb' 0 4 == 0 || (cfg.hasSlowIdle && (w.extractLsb' 0 4 == 1 || w.extractLsb' 0 4 == 2 ||
            w.extractLsb' 0 4 == 4 || w.extractLsb' 0 4 == 8))))) := by
  have hfixed : w.extractLsb' 12 4 = (w.extractLsb' 4 12).extractLsb' 8 4 :=
    (extractLsb'_extractLsb'_of_le (a := 4) (b := 8) w (by decide)).symm
  have hsign : w.extractLsb' 15 1 = (w.extractLsb' 12 4).extractLsb' 3 1 :=
    (extractLsb'_extractLsb'_of_le (a := 12) (b := 3) w (by decide)).symm
  rw [hsign]
  by_cases hpins : w.extractLsb' 12 4 = 0
  · have hrow : decodeLow w = some (.flagOut (PinOp.ofCode (w.extractLsb' 10 2)) (PinOp.ofCode (w.extractLsb' 8 2))
        (PinOp.ofCode (w.extractLsb' 6 2)) (PinOp.ofCode (w.extractLsb' 4 2)) (Cond.ofCode (w.extractLsb' 0 4))) := by
      rw [decodeLow, hl]
      exact if_pos hpins
    have hf2 : w.extractLsb' 10 2 = (w.extractLsb' 6 6).extractLsb' 4 2 :=
      (extractLsb'_extractLsb'_of_le (a := 6) (b := 4) w (by decide)).symm
    have hf1 : w.extractLsb' 8 2 = (w.extractLsb' 6 6).extractLsb' 2 2 :=
      (extractLsb'_extractLsb'_of_le (a := 6) (b := 2) w (by decide)).symm
    have hf0 : w.extractLsb' 6 2 = (w.extractLsb' 6 6).extractLsb' 0 2 :=
      (extractLsb'_extractLsb'_of_le (a := 6) (b := 0) w (by decide)).symm
    rw [hrow, hpins, Option.any_some, wellFormed, PinOp.ofCode_beq_keep, PinOp.ofCode_beq_keep, PinOp.ofCode_beq_keep,
      hf2, hf1, hf0, pins_beq_keep]
    cases cfg.hasFl <;> simp [bne]
  · have hrow : decodeLow w = if w.extractLsb' 4 12 = 0x800 then
        (if w.extractLsb' 0 4 = 0 then some .idle else (SlowDiv.ofCode (w.extractLsb' 0 4)).map .idleN) else none := by
      rw [decodeLow, hl]
      exact if_neg hpins
    rw [hrow, any_ite_none, beq_false_of_ne hpins]
    by_cases hidle : w.extractLsb' 4 12 = 0x800
    · rw [hfixed, hidle]
      by_cases hdv : w.extractLsb' 0 4 = 0
      · rw [if_pos hdv, hdv]
        rfl
      · rw [if_neg hdv, any_map_of_forall cfg (b := cfg.hasSlowIdle) (fun _ => rfl), SlowDiv.ofCode_isSome,
          beq_false_of_ne hdv]
        simp [Bool.and_comm]
    · rw [beq_false_of_ne hidle, decide_eq_false hidle]
      rfl

theorem decodeShiftImm_ofCode_any (c : BitVec 4) (x : ShX) (e : BitVec 8) :
    (decodeShiftImm (ShFn.ofCode c) x e).any (wellFormed cfg) = !(c.extractLsb' 3 1 == 1) := by
  obtain ⟨c⟩ := c
  fin_cases c <;> rfl

/-- The words of top byte 00 to 0F (R121 types 15 to 31), one row for each. -/
theorem decodeLow_any (hn : w.extractLsb' 20 4 = 0) : (decodeLow w).any (wellFormed cfg) = !isReserved cfg w := by
  obtain ⟨l, hl⟩ : ∃ l, w.extractLsb' 16 4 = l := ⟨_, rfl⟩
  have htop : w.extractLsb' 16 8 = 0#4 ++ l := by rw [topByte_eq, hn, hl]; rfl
  have hsf : w.extractLsb' 14 1 = (w.extractLsb' 11 4).extractLsb' 3 1 :=
    (extractLsb'_extractLsb'_of_le (a := 11) (b := 3) w (by decide)).symm
  rw [isReserved, fixedBitsMatch, fieldsReserved, htop]
  obtain ⟨l⟩ := l
  fin_cases l
  all_goals rw [decodeLow, hl]
  · -- 00: NOP
    refine (any_ite_none cfg _).trans ?_
    simp [wellFormed, Bool.beq_eq_decide_eq]
  · -- 01: IO
    exact (wellFormed_ite cfg (b := cfg.hasIo) rfl rfl).trans (by simp)
  · -- 02: FLAG OUT, IDLE
    have hrow := decodeLow_pinsIdle_any cfg hl
    rw [decodeLow, hl] at hrow
    exact hrow.trans (by simp)
  · -- 03: JUMP and CALL on FLAG_IN
    refine (wellFormed_ite cfg (b := true) rfl rfl).trans ?_
    rfl
  · -- 04: stack control
    exact (decodeType26_any cfg w).trans (by simp)
  · -- 05: SAT MR
    refine (any_ite_none cfg _).trans ?_
    simp [wellFormed, Bool.beq_eq_decide_eq]
  · -- 06: DIVS
    refine (any_ite_none cfg _).trans ?_
    rw [Option.any_some, wellFormed, AluY.ofCode_divisor]
    simp [Bool.beq_eq_decide_eq]
  · -- 07: DIVQ
    refine (any_ite_none cfg _).trans ?_
    simp [wellFormed, Bool.beq_eq_decide_eq]
  · -- 08: reserved
    simp
  · -- 09: MODIFY
    refine (any_ite_none cfg _).trans ?_
    simp [wellFormed, Bool.beq_eq_decide_eq]
  · -- 0A: RTS, RTI
    refine (any_ite_none cfg _).trans ?_
    rw [Option.any_some, wellFormed_ite cfg (b := true)]
    · simp [Bool.beq_eq_decide_eq]
    · rfl
    · rfl
  · -- 0B: indirect JUMP and CALL
    refine (any_ite_none cfg _).trans ?_
    rw [Option.any_some, wellFormed_ite cfg (b := true)]
    · simp [Bool.beq_eq_decide_eq]
    · rfl
    · rfl
  · -- 0C: mode control
    refine (any_ite_none cfg _).trans ?_
    simp [wellFormed, Bool.beq_eq_decide_eq]
  · -- 0D: register move
    exact (decodeType17_any cfg w).trans (by simp)
  · -- 0E: shift
    refine (any_ite_none cfg _).trans ?_
    rw [any_map_of_forall cfg fun x => wellFormed_decodeShift cfg _ x _, ShX.ofCode_isSome]
    simp [Bool.beq_eq_decide_eq]
  · -- 0F: immediate shift
    refine (any_ite_none cfg _).trans ?_
    rw [any_bind_of_forall cfg fun x => decodeShiftImm_ofCode_any cfg _ x _, ShX.ofCode_isSome, ← hsf]
    simp [Bool.beq_eq_decide_eq]

/-! ## Top bytes 10 to 1F (types 10 to 14) -/

theorem decodeOne_any (hn : w.extractLsb' 20 4 = 1) : (decodeOne w).any (wellFormed cfg) = !isReserved cfg w := by
  obtain ⟨l, hl⟩ : ∃ l, w.extractLsb' 16 4 = l := ⟨_, rfl⟩
  have htop : w.extractLsb' 16 8 = 1#4 ++ l := by rw [topByte_eq, hn, hl]; rfl
  have hbit (b : Nat) (hb : b + 1 ≤ 4) : w.extractLsb' (16 + b) 1 = l.extractLsb' b 1 := by
    rw [← hl, extractLsb'_extractLsb'_of_le w hb]
  rw [isReserved, fixedBitsMatch, fieldsReserved, htop, decodeOne, hbit 3 (by decide), hbit 2 (by decide),
    hbit 1 (by decide), hbit 0 (by decide)]
  obtain ⟨l⟩ := l
  fin_cases l
  · -- 10: shift with a register move, whose bit 15 is fixed
    refine (any_bind_of_forall cfg (b := w.extractLsb' 15 1 == 0) fun x => ?_).trans ?_
    · refine (any_ite_none cfg _).trans ?_
      simp [wellFormed, Bool.beq_eq_decide_eq]
    · rw [ShX.ofCode_isSome]
      simp [Bool.and_comm]
  iterate 3
    · -- 11 to 13: shift with a memory access
      refine (any_bind_of_forall cfg (b := true) fun x => ?_).trans ?_
      · exact wellFormed_ite cfg rfl rfl
      rw [ShX.ofCode_isSome]
      simp
  all_goals rfl

/-! ## Top bytes from 20 on (types 1 to 9) -/

theorem topByte_toNat (w : PWord) :
    (w.extractLsb' 16 8).toNat = 16 * (w.extractLsb' 20 4).toNat + (w.extractLsb' 16 4).toNat := by
  rw [topByte_eq, BitVec.toNat_append, ← Nat.shiftLeft_add_eq_or_of_lt (BitVec.isLt _), Nat.shiftLeft_eq, Nat.mul_comm]

theorem topBit_eq_one_iff (l : BitVec 4) : l.extractLsb' 3 1 = 1 ↔ 8 ≤ l.toNat := by revert l; decide

/-- The fields checked in the types 1 to 9, whose pattern the first nibble and bit 19 settle (R122). -/
def highReserved (w : PWord) : Bool :=
  match (w.extractLsb' 20 4).toNat with
  | 2 => w.extractLsb' 19 1 != 1 && type9Reserved cfg w
  | 3 => w.extractLsb' 18 2 == 0 || noDestination (w.extractLsb' 18 2) (w.extractLsb' 0 4)
  | 8 => noDestination (w.extractLsb' 18 2) (w.extractLsb' 0 4)
  | 9 => noSource (w.extractLsb' 18 2) (w.extractLsb' 0 4)
  | _ => false

theorem isReserved_eq_highReserved (h : 2 ≤ (w.extractLsb' 20 4).toNat) : isReserved cfg w = highReserved cfg w := by
  have hl : (w.extractLsb' 16 4).toNat < 16 := BitVec.isLt _
  have htop := topByte_toNat w
  have hfix : fixedBitsMatch w = true := by
    unfold fixedBitsMatch
    split
    case h_16 => rfl
    all_goals omega
  have hhalf : w.extractLsb' 19 1 = 1 ↔ 8 ≤ (w.extractLsb' 16 4).toNat := by
    rw [← topBit_eq_one_iff, extractLsb'_extractLsb'_of_le w (by decide)]
  have hfields : isReserved cfg w = fieldsReserved cfg w := by rw [isReserved, hfix, Bool.not_true, Bool.false_or]
  rw [hfields, highReserved]
  split
  case h_1 hn =>
    by_cases h19 : w.extractLsb' 19 1 = 1
    · have := hhalf.1 h19
      rw [h19]
      simp (disch := omega) only [fieldsReserved, if_neg]
      rfl
    · have := mt hhalf.2 h19
      rw [bne_iff_ne.2 h19]
      simp (disch := omega) only [fieldsReserved, if_neg, if_pos]
      rfl
  case h_5 h2 h3 h8 h9 =>
    have hother : (w.extractLsb' 20 4).toNat ≠ 2 ∧ (w.extractLsb' 20 4).toNat ≠ 3 ∧ (w.extractLsb' 20 4).toNat ≠ 8 ∧
      (w.extractLsb' 20 4).toNat ≠ 9 := ⟨h2, h3, h8, h9⟩
    simp (disch := omega) only [fieldsReserved, if_neg]
  all_goals simp (disch := omega) only [fieldsReserved, if_neg, if_pos]

theorem decodeRow_any (w : PWord) : (decodeRow cfg w).any (wellFormed cfg) = !isReserved cfg w := by
  obtain ⟨n, hn⟩ : ∃ n, w.extractLsb' 20 4 = n := ⟨_, rfl⟩
  have hlow : w.extractLsb' 20 1 = n.extractLsb' 0 1 := by
    rw [← hn, extractLsb'_extractLsb'_of_le w (by decide)]
  have hres (hle : 2 ≤ n.toNat) := isReserved_eq_highReserved cfg (w := w) (hn ▸ hle)
  rw [decodeRow, hn]
  obtain ⟨n⟩ := n
  fin_cases n
  · exact decodeLow_any cfg hn
  · exact decodeOne_any cfg hn
  all_goals rw [hres (by decide), highReserved, hn]
  · -- 2: types 8 and 9
    have hrow : decodeTwoThree cfg w = if w.extractLsb' 19 1 = 1 then some (decodeType8 cfg w) else decodeType9 w := by
      rw [decodeTwoThree, hlow]
      rfl
    refine (congrArg (Option.any (wellFormed cfg)) hrow).trans ?_
    by_cases h19 : w.extractLsb' 19 1 = 1
    · rw [if_pos h19, h19]
      exact wellFormed_decodeType8 cfg w
    · rw [if_neg h19, bne_iff_ne.2 h19, decodeType9_any]
      rfl
  · -- 3: type 7
    rw [decodeTwoThree, hlow]
    exact Option.any_map.trans (DstReg.ofCode_any_not_isDreg _ _)
  · -- 4: type 6
    rfl
  · exact wellFormed_decodeMem cfg true w
  iterate 2 · exact wellFormed_decodeMem cfg false w
  · -- 8: type 3, read
    dsimp only
    rw [decodeType3, hlow]
    refine (any_map_of_forall cfg (b := true) fun _ => rfl).trans ?_
    rw [Bool.and_true, DstReg.ofCode_isSome]
    rfl
  · -- 9: type 3, write
    dsimp only
    rw [decodeType3, hlow]
    refine (any_map_of_forall cfg (b := true) fun _ => rfl).trans ?_
    rw [Bool.and_true, SrcReg.ofCode_isSome]
    rfl
  iterate 2 · rfl
  all_goals exact wellFormed_decodeType1 cfg w

end

/-- A word is refused exactly when it is reserved. -/
theorem decode_eq_none_iff_isReserved (cfg : Config) (w : PWord) : decode cfg w = none ↔ isReserved cfg w = true := by
  rw [decode_eq_none_iff, decodeRow_any, Bool.not_eq_false']

theorem isReserved_of_topByte_eight (cfg : Config) {w : PWord} (h : w.extractLsb' 16 8 = 0x08) :
    isReserved cfg w = true := by
  rw [isReserved, fixedBitsMatch, h]
  rfl

/-- AMF 00000 with NOT CE is no type 9 instruction (R409, log 17). -/
theorem isReserved_of_type9_notCe (cfg : Config) {w : PWord} (htype : w.extractLsb' 19 5 = 0b00100)
    (hamf : w.extractLsb' 13 5 = 0) (hcond : w.extractLsb' 0 4 = 14) : isReserved cfg w = true := by
  have hnibble : w.extractLsb' 20 4 = 2 := by
    rw [← extractLsb'_extractLsb'_of_le (a := 19) (b := 1) (k := 5) w (by decide), htype]
    rfl
  have hbit : w.extractLsb' 19 1 = 0 := by
    rw [← extractLsb'_extractLsb'_of_le (a := 19) (b := 0) (k := 5) w (by decide), htype]
    rfl
  rw [isReserved_eq_highReserved cfg (by rw [hnibble]; decide), highReserved, hnibble, hbit, type9Reserved, hamf, hcond]
  rfl

/-- Settles O59: every row of the decoder answers a well-formed instruction exactly on the words R180 does not reserve. -/
theorem reservedWordsAreRefused : Obligations.ReservedWordsAreRefused :=
  ⟨decode_eq_none_iff_isReserved, decode_wellFormed,
    fun cfg _ h => (decode_eq_none_iff_isReserved cfg _).2 (isReserved_of_topByte_eight cfg h),
    fun cfg _ htype hamf hcond => (decode_eq_none_iff_isReserved cfg _).2 (isReserved_of_type9_notCe cfg htype hamf hcond)⟩

end Sys2Proof
end
